-- ==== Sys2Proof/Word.lean ====
section
/-! DEFINITION. The widths of the ZW2240's values: bytes, node numbers, tags and addresses (spec 01 Table 1-2, 11 Tables 11-1 to 11-4). -/

namespace Sys2Proof

/-- One byte of a packet. -/
abbrev Byte := BitVec 8

/-- A node number 0..1023 (R2, Table 1-2). -/
abbrev Node := BitVec 10

/-- A request or bridge tag 0..255 (R2, R77). -/
abbrev Tag := BitVec 8

/-- A 40-bit byte address (00 "Numbers"). -/
abbrev Addr := BitVec 40

/-- A 4-byte value of a management field (R175). -/
abbrev Word32 := BitVec 32

/-- An 8-byte value of a management field (R175). -/
abbrev Word64 := BitVec 64

end Sys2Proof
end

