-- ==== Sys2Proof/Syntax.lean ====
section
/-! DEFINITION. The commands of the ZW2240: one constructor of `Instr` per row of spec/opcode_table.json, with the operands the row's event has. -/

namespace Sys2Proof

/-- The two link ports (00 "Indices"): Port U has index 0, Port D index 1. -/
inductive Port where
  | u
  | d
  deriving DecidableEq, Repr

/-- A direction of traffic and, with it, a window table (R21): DOWN arrives at Port U, UP at Port D. -/
inductive Dir where
  | down
  | up
  deriving DecidableEq, Repr

/-- The request kinds that the ingress buffer holds (Table 1-1). -/
inductive ReqKind where
  | rd
  | cw
  | pw
  deriving DecidableEq, Repr

/-- A request packet as it arrives, no field checked (R2, Table 11-1): the space is the raw byte, the
length the raw 16-bit field, the data the payload. -/
structure Request where
  kind : ReqKind
  dst : Node
  src : Node
  tag : Tag
  space : Byte
  address : Addr
  length : BitVec 16
  data : List Byte
  deriving DecidableEq, Repr

/-- A completion packet as it arrives (R4, Table 11-2). Its detail is not read by the bridge. -/
structure CplPacket where
  status : Byte
  dst : Node
  src : Node
  tag : Tag
  detail : Option Byte
  data : List Byte
  deriving DecidableEq, Repr

/-- Who sends a request to the bridge itself: the (node, arrival port) pair and the request's tag
(R139, R177). -/
structure Requester where
  port : Port
  node : Node
  tag : Tag
  deriving DecidableEq, Repr

/-- The eleven notice kinds (R159, Table 8-1). -/
inductive NoticeKind where
  | absorbedWriteFailed
  | refusedPostedWrite
  | completionTimeout
  | lateCompletion
  | strayCompletion
  | portStalled
  | linkDown
  | linkUp
  | creditOverrun
  | lockExpired
  | managementDenied
  deriving DecidableEq, Repr

/-- A write of one configuration field of a window (R24, Table 9-5): the field and the value written,
in the field's width. -/
inductive WindowFieldWrite where
  | attributes (value : Word32)
  | base (value : Word64)
  | limit (value : Word64)
  | translatedBase (value : Word64)
  | target (value : Word32)
  deriving DecidableEq, Repr

/-- The commands. Each docstring names the row of spec/opcode_table.json and its rule. -/
inductive Instr where
  /-- POWER_UP_RESET (R20): RESET_N is asserted. -/
  | powerUpReset
  /-- RESET_N_DEASSERTION (R197): RESET_N rises with the ten strap pins at `straps`. -/
  | resetNDeassertion (straps : Node)
  /-- LINK_ESTABLISHMENT (R10). -/
  | linkEstablishment (p : Port)
  /-- LINK_LOSS (R11). -/
  | linkLoss (p : Port)
  /-- REQUEST_ARRIVAL (R14): an RD, CW or PW arrives at `p`. -/
  | requestArrival (p : Port) (r : Request)
  /-- COMPLETION_ARRIVAL (R80, R14). -/
  | completionArrival (p : Port) (c : CplPacket)
  /-- NOTICE_ARRIVAL (R5): an NTC arrives, addressed to `destination`. -/
  | noticeArrival (p : Port) (destination : Node)
  /-- CREDIT_ARRIVAL (R123, R6): a CRD arrives with `increment` in its byte 1. -/
  | creditArrival (p : Port) (increment : Byte)
  /-- UNDEFINED_PACKET_ARRIVAL (R6, R194): a packet with the bytes `packet` arrives. -/
  | undefinedPacketArrival (p : Port) (packet : List Byte)
  /-- CRD_DEPARTURE (R17). -/
  | crdDeparture (p : Port)
  /-- COMPLETION_DEPARTURE (R102). -/
  | completionDeparture (p : Port)
  /-- EGRESS_DEPARTURE (R122). -/
  | egressDeparture (p : Port)
  /-- ADMISSION_JUDGEMENT (R49) of the head of the ingress buffer of `p`. -/
  | admissionJudgement (p : Port)
  /-- NOTICE_PLACEMENT (R165). -/
  | noticePlacement
  /-- DONE_ENTRY_DELIVERY (R90) of entry `e`. -/
  | doneEntryDelivery (e : Fin 64)
  /-- OUTBOX_GRANT_PLACING (R146) of the grant in the outbox of lock `k`. -/
  | outboxGrantPlacing (k : Fin 8)
  /-- EXPIRY_ANSWER_PLACING (R151) of lock `k`'s oldest expiry answer for port `p`. -/
  | expiryAnswerPlacing (k : Fin 8) (p : Port)
  /-- COMPLETION_DEADLINE_EXPIRY (R86). -/
  | completionDeadlineExpiry (e : Fin 64)
  /-- QUARANTINE_EXPIRY (R87). -/
  | quarantineExpiry (e : Fin 64)
  /-- STALL_TIMER_EXPIRY (R127). -/
  | stallTimerExpiry (p : Port)
  /-- LEASE_EXPIRY (R148). -/
  | leaseExpiry (k : Fin 8)
  /-- WAIT_EXPIRY (R150) of the waiter (`node`, `p`) of lock `k`. -/
  | waitExpiry (k : Fin 8) (node : Node) (p : Port)
  /-- ACQUIRE (R140): an RD of length 4 at the ACQUIRE address of lock `k`. -/
  | acquire (q : Requester) (k : Fin 8)
  /-- RELEASE (R145): a CW of length 4 at the RELEASE address of lock `k`, with the generation as data. -/
  | release (q : Requester) (k : Fin 8) (generation : Word32)
  /-- BREAK (R147): a CW of the value 1 to the BREAK field of lock `k`. -/
  | breakLock (q : Requester) (k : Fin 8)
  /-- TLEASE_WRITE (R137). -/
  | tleaseWrite (q : Requester) (k : Fin 8) (value : Word32)
  /-- TWAIT_WRITE (R137). -/
  | twaitWrite (q : Requester) (k : Fin 8) (value : Word32)
  /-- ENABLE (R30) of window `w` of table `t`. -/
  | enable (q : Requester) (t : Dir) (w : Fin 16)
  /-- DISABLE (R36). -/
  | disable (q : Requester) (t : Dir) (w : Fin 16)
  /-- CLEAR_FAULT (R39). -/
  | clearFault (q : Requester) (t : Dir) (w : Fin 16)
  /-- WINDOW_FIELD_WRITE (R24). -/
  | windowFieldWrite (q : Requester) (t : Dir) (w : Fin 16) (f : WindowFieldWrite)
  /-- HIT_COUNT_CLEAR (R44): a CW of any value to the hit count. -/
  | hitCountClear (q : Requester) (t : Dir) (w : Fin 16) (value : Word32)
  /-- NODE_IDENTITY_WRITE (R8) of port `p`'s identity. -/
  | nodeIdentityWrite (q : Requester) (p : Port) (value : Word32)
  /-- TSTALL_WRITE (R125) of port `p`'s tSTALL. -/
  | tstallWrite (q : Requester) (p : Port) (value : Word32)
  /-- RESERVE_WRITE (R74) of direction `x`'s reserve. -/
  | reserveWrite (q : Requester) (x : Dir) (value : Word32)
  /-- TCTO_WRITE (R75) of direction `x`'s tCTO. -/
  | tctoWrite (q : Requester) (x : Dir) (value : Word32)
  /-- CLASS_WRITE (R162) of the class of notice kind `n`. -/
  | classWrite (q : Requester) (n : NoticeKind) (value : Word32)
  /-- TARGET_PORT_WRITE (R163). -/
  | targetPortWrite (q : Requester) (value : Word32)
  /-- TARGET_NODE_WRITE (R163). -/
  | targetNodeWrite (q : Requester) (value : Word32)
  /-- MANAGER_ENTRY_WRITE (R178) of MANAGERS entry `i`. -/
  | managerEntryWrite (q : Requester) (i : Fin 4) (value : Word32)
  /-- DIVIDER_WRITE (R187). -/
  | dividerWrite (q : Requester) (value : Word32)
  /-- SOFT_RESET (R191): a CW of the value 1 to RESET. -/
  | softReset (q : Requester)
  /-- REGISTER_WRITE (R175): any other management CW, with its address, length field and data. -/
  | registerWrite (q : Requester) (address : Addr) (length : BitVec 16) (data : List Byte)
  /-- MILLISECOND_COUNT_INCREMENT (R189). -/
  | millisecondCountIncrement
  deriving DecidableEq, Repr

end Sys2Proof
end

