-- ==== Sys2Proof/Config.lean ====
section
/-! DEFINITION. What the spec leaves open: the one free value of the model, and the constants fixed in the part (R180). -/

namespace Sys2Proof

/-- The free value behind every order the spec leaves open (R62 two waiting heads, R161 raises of
different blocks, R188 expiries at one tick, R47/R95 absorbed entries at a link loss): `freeOrder draw
index` is the `index`-th pick of draw number `draw`. It has no body, so nothing can be proved of it
(notes/assumptions/3.md). -/
opaque Config.freeOrder : Nat → Nat → Nat

/-- IDENT vendor code (R180). -/
def Config.vendorCode : Nat := 0x0D3A

/-- IDENT part code (R180). -/
def Config.partCode : Nat := 0x2240

/-- IDENT revision (R180). -/
def Config.revision : Nat := 1

end Sys2Proof
end

