-- ==== Sys2Proof/Machine/State.lean ====
section
/-! DEFINITION. The state of the ZW2240 as plain data, every piece the spec names (INVENTORY.md, "State"), its value after power-up reset, and the reasons a command can stop. -/

namespace Sys2Proof.Machine

/-- Link state of a port (Table 1-3). -/
inductive LinkState where
  | down
  | up
  | stalled
  deriving DecidableEq, Repr

/-- What the transmitter can take from its two queues (R13). -/
inductive TxQueue where
  | completion
  | egress
  deriving DecidableEq, Repr

/-- A window's space (R22). -/
inductive Space where
  | memory
  | io
  deriving DecidableEq, Repr

/-- Window states (Table 2-3). -/
inductive WindowState where
  | disabled
  | active
  | faulted
  | draining
  deriving DecidableEq, Repr

/-- The posting attribute (R23). -/
inductive Posting where
  | absorb
  | pass
  deriving DecidableEq, Repr

/-- The split granule (R23): NONE, 128 or 256 bytes. -/
inductive Granule where
  | whole
  | g128
  | g256
  deriving DecidableEq, Repr

/-- The status catalogue (05 5.5, Table 11-7). -/
inductive Status where
  | ok
  | badRequest
  | misrouted
  | unmapped
  | boundary
  | windowClosed
  | windowFault
  | access
  | locked
  | portDown
  | portStalled
  | timeout
  | linkDown
  | targetError
  | malformed
  | badObject
  | badLength
  | readOnly
  | badValue
  | wrongState
  | overlap
  | denied
  | busy
  | duplicate
  | notHolder
  | lockBroken
  deriving DecidableEq, Repr

/-- How a segment can fail (Table 4-2, Table 5-4): only TARGET_ERROR has a detail (R84, R109). -/
inductive Failure where
  | targetError (detail : Byte)
  | malformed
  | timeout
  | linkDown
  | portStalled
  deriving DecidableEq, Repr

/-- A window's fault record (R41). -/
structure FaultRecord where
  address : Addr
  node : Node
  status : Status
  /-- later-fault count, 0..255, saturating -/
  later : Nat
  deriving DecidableEq, Repr

/-- A window (Table 2-2). -/
structure Window where
  state : WindowState
  space : Space
  base : Addr
  limit : Addr
  translatedBase : Addr
  target : Node
  readAllowed : Bool
  writeAllowed : Bool
  posting : Posting
  granule : Granule
  lockBinding : Option (BitVec 4)
  inFlight : Nat
  hits : Word32
  fault : Option FaultRecord
  deriving DecidableEq, Repr

/-- A completion in a completion queue or held by a claimant (R101, Table 5-2). The source node is filled in
at the departure (R3). No data is the empty list. -/
structure Completion where
  node : Node
  tag : Tag
  status : Status
  detail : Option Byte
  data : List Byte
  deriving DecidableEq, Repr

/-- A lock answer that waits for a slot of `port`'s completion queue (R103). -/
structure HeldAnswer where
  port : Port
  answer : Completion
  deriving DecidableEq, Repr

/-- A waiter of a lock (Table 7-1). -/
structure Waiter where
  node : Node
  port : Port
  tag : Tag
  /-- wait deadline as the whole ticks still to begin (notes/assumptions/11.md), absent when tWAIT was 0 at the append -/
  deadline : Option Nat
  deriving DecidableEq, Repr

/-- A lock (Table 7-1). -/
structure Lock where
  holder : Option (Node × Port)
  generation : Word32
  tLease : BitVec 16
  tWait : BitVec 16
  /-- lease deadline as the whole ticks still to begin (R188; notes/assumptions/11.md) -/
  lease : Option Nat
  waiters : List Waiter
  outbox : Option HeldAnswer
  /-- expiry answers, in order of expiry (R151) -/
  expired : List HeldAnswer
  deriving DecidableEq, Repr

/-- A notice class (R162). -/
inductive NoticeClass where
  | off
  | routine
  | urgent
  deriving DecidableEq, Repr

/-- The cause of LOCK_EXPIRED (Table 8-1). -/
inductive Cause where
  | lease
  | broken
  | link
  deriving DecidableEq, Repr

/-- The detail fields of a notice (R5, Table 8-1); absent is `none`. -/
structure Details where
  port : Option Port := none
  window : Option (Dir × Fin 16) := none
  address : Option Addr := none
  node : Option Node := none
  lock : Option (Fin 8) := none
  status : Option Byte := none
  cause : Option Cause := none
  deriving DecidableEq, Repr

/-- A notice record (Table 8-2). -/
structure NoticeRecord where
  kind : NoticeKind
  cls : NoticeClass
  timestamp : Word32
  details : Details
  deriving DecidableEq, Repr

/-- A notice stamped into an NTC packet (R166). -/
structure StampedNotice where
  destination : Node
  sequence : BitVec 16
  /-- dropped-since-last, 0..65535 -/
  dropped : Nat
  record : NoticeRecord
  deriving DecidableEq, Repr

/-- The packet fields of a forwarded segment (R3). -/
structure SegmentPacket where
  kind : ReqKind
  target : Node
  tag : Tag
  space : Space
  address : Addr
  length : Nat
  data : List Byte
  deriving DecidableEq, Repr

/-- Contents of an egress slot (Table 6-1): a segment of entry `e` with segment number `k`, a PASS segment with
its requester and window (the arrival port is the origin port of the window's table, R21), or a notice. -/
inductive EgressPacket where
  | segment (e : Fin 64) (k : Nat) (packet : SegmentPacket)
  | pass (node : Node) (t : Dir) (w : Fin 16) (packet : SegmentPacket)
  | notice (n : StampedNotice)
  deriving DecidableEq, Repr

/-- tSTALL settings (R125). -/
inductive TStall where
  | off
  | us100
  | ms1
  | ms10
  deriving DecidableEq, Repr

/-- tCTO settings (R75). -/
inductive TCto where
  | off
  | ms1
  | ms8
  | ms64
  | ms512
  deriving DecidableEq, Repr

/-- State of a segment (Table 4-2). -/
inductive SegState where
  | notSent
  | sent
  | ok
  | failed (f : Failure)
  deriving DecidableEq, Repr

/-- A segment record (Table 4-2); its number is its place in the entry's list. -/
structure Segment where
  offset : Nat
  length : Nat
  state : SegState
  deriving DecidableEq, Repr

/-- Kinds of entries (Table 4-1). -/
inductive EntryKind where
  | read
  | confirmed
  | absorbed
  deriving DecidableEq, Repr

/-- States of an entry that is not FREE (Table 4-4). -/
inductive EntryState where
  | pending
  | issued
  | done
  | quarantined
  deriving DecidableEq, Repr

/-- A completion deadline: the whole ticks still to begin (R188; notes/assumptions/11.md) and the tCTO value it was set with (Table 4-1, R79). -/
structure Deadline where
  remaining : Nat
  setting : TCto
  deriving DecidableEq, Repr

/-- An entry's result (R84). -/
inductive Result where
  | ok
  | failed (f : Failure)
  deriving DecidableEq, Repr

/-- A request-table entry that is not FREE (Table 4-1). Its window's table, its origin port and its forward
port follow from the direction (R21, Table 4-1 note). -/
structure Entry where
  state : EntryState
  dir : Dir
  kind : EntryKind
  node : Node
  tag : Tag
  orphaned : Bool
  window : Fin 16
  target : Node
  address : Addr
  length : Nat
  segments : List Segment
  buffer : List Byte
  deadline : Option Deadline
  result : Option Result
  /-- tQUAR in ticks, fixed at the timeout (R87) -/
  tQuar : Option Nat
  /-- quarantine deadline as the whole ticks still to begin (notes/assumptions/11.md) -/
  quarantine : Option Nat
  deriving DecidableEq, Repr

/-- A link port (01 to 06). -/
structure PortState where
  link : LinkState
  identity : Node
  ingress : List Request
  /-- the head has been judged and waits (R49) -/
  headWaits : Bool
  creditsOwed : Nat
  lastChoice : TxQueue
  admitted : Word32
  refused : Word32
  stray : Word32
  discard : Word32
  completions : List Completion
  egress : List EgressPacket
  credits : Nat
  tStall : TStall
  /-- stall timer as the whole ticks still to begin (R126, R188; notes/assumptions/11.md) -/
  stallTimer : Option Nat
  /-- the model's own: the bytes last handed to the link layer (R1) -/
  lane : List Byte
  deriving DecidableEq, Repr

/-- A manager list entry (R176). -/
structure ManagerEntry where
  valid : Bool
  node : Node
  port : Port
  deriving DecidableEq, Repr

/-- The notice unit (08). Classes are indexed by notice kind code minus 1. -/
structure NoticeUnit where
  classes : Vector NoticeClass 11
  targetPort : Option Port
  targetNode : Node
  /-- records, oldest first; the order within each class is the order of append (R164) -/
  queue : List NoticeRecord
  nextSequence : BitVec 16
  droppedSince : Nat
  droppedTotal : Nat
  deriving DecidableEq, Repr

/-- The timebase (09 9.5). -/
structure Timebase where
  divider : Nat
  /-- REFCLK periods counted toward the next tick -/
  refclk : Nat
  /-- ticks counted toward the next millisecond -/
  msProgress : Nat
  msCount : Word32
  deriving DecidableEq, Repr

/-- The whole bridge, its waiting commands (`pending`) and the number of the next free value (`freeNext`). -/
structure State where
  resetN : Bool
  portU : PortState
  portD : PortState
  down : Vector Window 16
  up : Vector Window 16
  entries : Vector (Option Entry) 64
  doneOrder : List (Fin 64)
  reserveDown : Nat
  reserveUp : Nat
  tctoDown : TCto
  tctoUp : TCto
  locks : Vector Lock 8
  notices : NoticeUnit
  managers : Vector ManagerEntry 4
  timebase : Timebase
  freeNext : Nat
  pending : List Instr
  deriving DecidableEq, Repr

/-- Reasons for a stop of the part. -/
inductive Fault where
  /-- Raised by no command: the spec lets no command stop the part, and every meaning answers a next state. It
  stands here because the interface names a type of reasons. Safe. -/
  | neverRaised
  deriving DecidableEq, Repr

/-- Reasons for refusing a command. -/
inductive Refusal where
  /-- Raised by `exec`'s arm of a command that has no meaning yet, with its mnemonic; no arm does. Safe. -/
  | notModelled (mnemonic : String)
  deriving DecidableEq, Repr

/-- A port at power-up reset (R20, R17, R19, R101, R119, R123, R125, R134). The identity before the straps are
loaded is 0 (notes/assumptions/4.md) and the lane is empty (notes/assumptions/12.md): DESIGN CHOICE, unsafe. -/
def PortState.reset : PortState where
  link := .down
  identity := 0
  ingress := []
  headWaits := false
  creditsOwed := 0
  lastChoice := .completion
  admitted := 0
  refused := 0
  stray := 0
  discard := 0
  completions := []
  egress := []
  credits := 0
  tStall := .ms1
  stallTimer := none
  lane := []

/-- A window at power-up reset (R45, Table 2-9). -/
def Window.reset : Window where
  state := .disabled
  space := .memory
  base := 0
  limit := 0
  translatedBase := 0
  target := 0
  readAllowed := false
  writeAllowed := false
  posting := .absorb
  granule := .whole
  lockBinding := none
  inFlight := 0
  hits := 0
  fault := none

/-- A lock at power-up reset (R158). -/
def Lock.reset : Lock where
  holder := none
  generation := 0
  tLease := 1000
  tWait := 5000
  lease := none
  waiters := []
  outbox := none
  expired := []

/-- The notice unit at power-up reset (R171), its classes as Table 8-1 gives them in the order of the kind codes. -/
def NoticeUnit.reset : NoticeUnit where
  classes := #v[.urgent, .routine, .routine, .routine, .routine, .urgent, .urgent, .routine, .urgent, .routine,
    .routine]
  targetPort := none
  targetNode := 0
  queue := []
  nextSequence := 0
  droppedSince := 0
  droppedTotal := 0

/-- The timebase at power-up reset (R187, R189). -/
def Timebase.reset : Timebase where
  divider := 100
  refclk := 0
  msProgress := 0
  msCount := 0

/-- The part right after power-up reset is asserted (R20, R45, R99, R158, R171, R176, R187, R189): RESET_N is low, so
the straps have not been read yet. `freeNext` is the model's own field (notes/assumptions/3.md). -/
def State.reset : State where
  resetN := false
  portU := PortState.reset
  portD := PortState.reset
  down := Vector.replicate 16 Window.reset
  up := Vector.replicate 16 Window.reset
  entries := Vector.replicate 64 none
  doneOrder := []
  reserveDown := 8
  reserveUp := 8
  tctoDown := .ms64
  tctoUp := .ms64
  locks := Vector.replicate 8 Lock.reset
  notices := NoticeUnit.reset
  managers := Vector.replicate 4 { valid := false, node := 0, port := .u }
  timebase := Timebase.reset
  freeNext := 0
  pending := []

end Sys2Proof.Machine
end

