-- ==== Sys2Proof/Machine/Formats.lean ====
section
/-! DEFINITION. Chapter 11: byte order, numeric codes, the packet layouts the bridge sends and reads, and the packed management fields. -/

namespace Sys2Proof.Machine

/-- `n` bytes of a number, most significant byte first (R194, R195). -/
def bytesBE : Nat → Nat → List Byte
  | 0, _ => []
  | n + 1, v => BitVec.ofNat 8 (v / 256 ^ n) :: bytesBE n v

/-- The number that bytes spell, most significant byte first (R194, R195). -/
def numBE (bs : List Byte) : Nat := bs.foldl (fun acc b => acc * 256 + b.toNat) 0

/-- Byte `i` of a packet (0 beyond its end). -/
def byteAt (bs : List Byte) (i : Nat) : Byte := bs.getD i 0

/-- The number in the `n` bytes from byte `i` on. -/
def fieldAt (bs : List Byte) (i n : Nat) : Nat := numBE ((bs.drop i).take n)

/-- Status codes (Table 11-7). -/
def Status.code : Status → Byte
  | .ok => 0x00
  | .badRequest => 0x10
  | .misrouted => 0x11
  | .unmapped => 0x12
  | .boundary => 0x13
  | .windowClosed => 0x14
  | .windowFault => 0x15
  | .access => 0x16
  | .locked => 0x17
  | .portDown => 0x18
  | .portStalled => 0x19
  | .timeout => 0x20
  | .linkDown => 0x21
  | .targetError => 0x22
  | .malformed => 0x23
  | .badObject => 0x30
  | .badLength => 0x31
  | .readOnly => 0x32
  | .badValue => 0x33
  | .wrongState => 0x34
  | .overlap => 0x35
  | .denied => 0x36
  | .busy => 0x40
  | .duplicate => 0x41
  | .notHolder => 0x42
  | .lockBroken => 0x43

/-- The status of a failed segment (Table 5-4). -/
def Failure.status : Failure → Status
  | .targetError _ => .targetError
  | .malformed => .malformed
  | .timeout => .timeout
  | .linkDown => .linkDown
  | .portStalled => .portStalled

/-- The detail of a failed segment: present with TARGET_ERROR only (R84, R109). -/
def Failure.detail : Failure → Option Byte
  | .targetError d => some d
  | _ => none

/-- Notice kind codes, 1..11 (Table 11-8). -/
def noticeCode : NoticeKind → Nat
  | .absorbedWriteFailed => 1
  | .refusedPostedWrite => 2
  | .completionTimeout => 3
  | .lateCompletion => 4
  | .strayCompletion => 5
  | .portStalled => 6
  | .linkDown => 7
  | .linkUp => 8
  | .creditOverrun => 9
  | .lockExpired => 10
  | .managementDenied => 11

/-- The place of a notice kind's class: its code minus 1 (Table 11-10). -/
def noticeIndex (k : NoticeKind) : Fin 11 :=
  match k with
  | .absorbedWriteFailed => 0
  | .refusedPostedWrite => 1
  | .completionTimeout => 2
  | .lateCompletion => 3
  | .strayCompletion => 4
  | .portStalled => 5
  | .linkDown => 6
  | .linkUp => 7
  | .creditOverrun => 8
  | .lockExpired => 9
  | .managementDenied => 10

/-- The notice kind with code `n` (Table 11-8). -/
def noticeOfCode : Nat → Option NoticeKind
  | 1 => some .absorbedWriteFailed
  | 2 => some .refusedPostedWrite
  | 3 => some .completionTimeout
  | 4 => some .lateCompletion
  | 5 => some .strayCompletion
  | 6 => some .portStalled
  | 7 => some .linkDown
  | 8 => some .linkUp
  | 9 => some .creditOverrun
  | 10 => some .lockExpired
  | 11 => some .managementDenied
  | _ => none

/-- Notice class codes (Table 11-9). -/
def NoticeClass.code : NoticeClass → Nat
  | .off => 0
  | .routine => 1
  | .urgent => 2

/-- The notice class with code `v` (Table 11-9). -/
def NoticeClass.ofCode : Nat → Option NoticeClass
  | 0 => some .off
  | 1 => some .routine
  | 2 => some .urgent
  | _ => none

/-- LOCK_EXPIRED cause codes (Table 11-9). -/
def Cause.code : Cause → Byte
  | .lease => 1
  | .broken => 2
  | .link => 3

/-- Port index (00 "Indices"). -/
def portIndex : Port → Nat
  | .u => 0
  | .d => 1

/-- Notice target port codes (Table 11-9). -/
def targetPortCode : Option Port → Nat
  | none => 0
  | some .u => 1
  | some .d => 2

/-- The notice target port with code `v` (Table 11-9): the outer `none` is no code. -/
def targetPortOfCode : Nat → Option (Option Port)
  | 0 => some none
  | 1 => some (some .u)
  | 2 => some (some .d)
  | _ => none

/-- Direction and table codes (Table 11-9, Table 11-11). -/
def dirCode : Dir → Nat
  | .down => 0
  | .up => 1

/-- Window state codes (Table 11-9). -/
def WindowState.code : WindowState → Nat
  | .disabled => 0
  | .active => 1
  | .faulted => 2
  | .draining => 3

/-- Link state codes (Table 11-9). -/
def LinkState.code : LinkState → Nat
  | .down => 0
  | .up => 1
  | .stalled => 2

/-- tSTALL codes (Table 11-9). -/
def TStall.code : TStall → Nat
  | .off => 0
  | .us100 => 1
  | .ms1 => 2
  | .ms10 => 3

/-- The tSTALL setting with code `v` (Table 11-9). -/
def TStall.ofCode : Nat → Option TStall
  | 0 => some .off
  | 1 => some .us100
  | 2 => some .ms1
  | 3 => some .ms10
  | _ => none

/-- A stall setting in ticks, absent for OFF (R125, R188). -/
def TStall.ticks : TStall → Option Nat
  | .off => none
  | .us100 => some 100
  | .ms1 => some 1000
  | .ms10 => some 10000

/-- tCTO codes (Table 11-9). -/
def TCto.code : TCto → Nat
  | .off => 0
  | .ms1 => 1
  | .ms8 => 2
  | .ms64 => 3
  | .ms512 => 4

/-- The tCTO setting with code `v` (Table 11-9). -/
def TCto.ofCode : Nat → Option TCto
  | 0 => some .off
  | 1 => some .ms1
  | 2 => some .ms8
  | 3 => some .ms64
  | 4 => some .ms512
  | _ => none

/-- A completion timeout in ticks, absent for OFF (R75, R188). -/
def TCto.ticks : TCto → Option Nat
  | .off => none
  | .ms1 => some 1000
  | .ms8 => some 8000
  | .ms64 => some 64000
  | .ms512 => some 512000

/-- Entry state codes of an entry that is not FREE (Table 11-9). -/
def EntryState.code : EntryState → Nat
  | .pending => 1
  | .issued => 2
  | .done => 3
  | .quarantined => 4

/-- Entry kind codes (Table 11-9). -/
def EntryKind.code : EntryKind → Nat
  | .read => 1
  | .confirmed => 2
  | .absorbed => 3

/-- Request kind codes (Table 11-6). -/
def reqCode : ReqKind → Byte
  | .rd => 0x01
  | .cw => 0x02
  | .pw => 0x03

/-- Space codes of a window's space (Table 11-6). -/
def Space.code : Space → Byte
  | .memory => 0x00
  | .io => 0x01

/-- The CONTROL space code (Table 11-6). -/
def controlSpace : Byte := 0x02

/-- The space a window can have with code `c` (Table 11-6). -/
def Space.ofCode (c : Byte) : Option Space :=
  if c = 0x00 then some .memory else if c = 0x01 then some .io else none

/-! ## Packets sent (R194: reserved bits and bytes are 0) -/

/-- A request packet: header of Table 11-1 and payload. -/
def requestBytes (kind space : Byte) (dst src : Node) (tag : Tag) (address : Addr) (length : Nat) (data : List Byte) :
    List Byte :=
  [kind, space] ++ bytesBE 2 dst.toNat ++ bytesBE 2 src.toNat ++ [tag, 0] ++ bytesBE 5 address.toNat ++ [0]
    ++ bytesBE 2 length ++ data

/-- A completion packet (Table 11-2): flags bit 0 and byte 8 carry the detail (R194). -/
def completionBytes (status : Byte) (dst src : Node) (tag : Tag) (detail : Option Byte) (data : List Byte) : List Byte :=
  [0x08, status] ++ bytesBE 2 dst.toNat ++ bytesBE 2 src.toNat
    ++ [tag, if detail.isSome then 1 else 0, detail.getD 0, 0, 0, 0] ++ data

/-- A credit packet (Table 11-4). -/
def creditBytes (increment : Nat) : List Byte := [0x0F, BitVec.ofNat 8 increment, 0, 0]

/-- One presence bit of a notice's detail presence (Table 11-3). -/
def presenceBit (present : Bool) (bit : Nat) : Nat := if present then 2 ^ bit else 0

/-- The detail presence bits (Table 11-3, bytes 16-17). -/
def Details.presence (d : Details) : Nat :=
  presenceBit d.port.isSome 0 + presenceBit d.window.isSome 1 + presenceBit d.address.isSome 2
    + presenceBit d.node.isSome 3 + presenceBit d.lock.isSome 4 + presenceBit d.status.isSome 5
    + presenceBit d.cause.isSome 6

/-- A table and window number in one byte (Table 11-3 byte 19, Table 11-11 "entry window"). -/
def windowCode (t : Dir) (w : Fin 16) : Nat := dirCode t * 16 + w.val

/-- A notice packet (Table 11-3); the bytes of an absent detail are 0 (R194). -/
def noticeBytes (src : Node) (n : StampedNotice) : List Byte :=
  let d := n.record.details
  [0x0C, BitVec.ofNat 8 (noticeCode n.record.kind)] ++ bytesBE 2 n.destination.toNat ++ bytesBE 2 src.toNat
    ++ bytesBE 2 n.sequence.toNat ++ bytesBE 2 n.dropped ++ [BitVec.ofNat 8 n.record.cls.code, 0]
    ++ bytesBE 4 n.record.timestamp.toNat ++ bytesBE 2 d.presence
    ++ [BitVec.ofNat 8 ((d.port.map portIndex).getD 0),
        BitVec.ofNat 8 ((d.window.map (fun x => windowCode x.1 x.2)).getD 0)]
    ++ bytesBE 5 ((d.address.map BitVec.toNat).getD 0) ++ [0] ++ bytesBE 2 ((d.node.map BitVec.toNat).getD 0)
    ++ [BitVec.ofNat 8 ((d.lock.map Fin.val).getD 0), d.status.getD 0, (d.cause.map Cause.code).getD 0, 0]

/-- The bytes of a segment's packet with `src` as source node (R3). -/
def SegmentPacket.bytes (src : Node) (k : SegmentPacket) : List Byte :=
  requestBytes (reqCode k.kind) k.space.code k.target src k.tag k.address k.length k.data

/-- The bytes of an egress packet as it leaves with `src` as source node (R3, R122). -/
def EgressPacket.bytes (src : Node) : EgressPacket → List Byte
  | .segment _ _ k => k.bytes src
  | .pass _ _ _ k => k.bytes src
  | .notice n => noticeBytes src n

/-- The bytes of a completion as it leaves (R4, R102, R194). -/
def Completion.bytes (src : Node) (c : Completion) : List Byte :=
  completionBytes c.status.code c.node src c.tag c.detail c.data

/-! ## Packets read (R194) -/

/-- What an arriving packet is. -/
inductive Arrival where
  | request (r : Request)
  | completion (c : CplPacket)
  | notice (destination : Node)
  | credit (increment : Byte)
  | undefinedKind
  deriving DecidableEq, Repr

/-- A node field, read from bits 9..0 of the two bytes at `i` (R194). -/
def nodeAt (bs : List Byte) (i : Nat) : Node := BitVec.ofNat 10 (fieldAt bs i 2)

/-- The request that a packet of at least 16 bytes spells (Table 11-1). -/
def readRequest (kind : ReqKind) (bs : List Byte) : Request where
  kind := kind
  dst := nodeAt bs 2
  src := nodeAt bs 4
  tag := byteAt bs 6
  space := byteAt bs 1
  address := BitVec.ofNat 40 (fieldAt bs 8 5)
  length := BitVec.ofNat 16 (fieldAt bs 14 2)
  data := bs.drop 16

/-- The completion that a packet of at least 12 bytes spells (Table 11-2). -/
def readCompletion (bs : List Byte) : CplPacket where
  status := byteAt bs 1
  dst := nodeAt bs 2
  src := nodeAt bs 4
  tag := byteAt bs 6
  detail := if (byteAt bs 7).getLsbD 0 then some (byteAt bs 8) else none
  data := bs.drop 12

/-- How the bridge reads an arriving packet (R194): byte 0 first; a kind code not in Table 11-6, or a packet
shorter than its kind's header, is a packet of undefined kind. -/
def readPacket (bs : List Byte) : Arrival :=
  match bs with
  | [] => .undefinedKind
  | k :: _ =>
    if k = 0x01 ∧ 16 ≤ bs.length then .request (readRequest .rd bs)
    else if k = 0x02 ∧ 16 ≤ bs.length then .request (readRequest .cw bs)
    else if k = 0x03 ∧ 16 ≤ bs.length then .request (readRequest .pw bs)
    else if k = 0x08 ∧ 12 ≤ bs.length then .completion (readCompletion bs)
    else if k = 0x0C ∧ 32 ≤ bs.length then .notice (nodeAt bs 2)
    else if k = 0x0F ∧ 4 ≤ bs.length then .credit (byteAt bs 1)
    else .undefinedKind

/-- The command that stands for the arrival of a packet's bytes at port `p`: the row of its kind. -/
def arrivalCommand (p : Port) (bs : List Byte) : Instr :=
  match readPacket bs with
  | .request r => .requestArrival p r
  | .completion c => .completionArrival p c
  | .notice n => .noticeArrival p n
  | .credit i => .creditArrival p i
  | .undefinedKind => .undefinedPacketArrival p bs

/-! ## Packed management fields (Table 11-11) -/

/-- A bit of a field's value, as a number. -/
def bitCode (b : Bool) (i : Nat) : Nat := if b then 2 ^ i else 0

/-- Bits `hi..lo` of a value. -/
def bitsOf (v hi lo : Nat) : Nat := v / 2 ^ lo % 2 ^ (hi + 1 - lo)

/-- The window attributes field as it reads. -/
def Window.attributesCode (w : Window) : Nat :=
  (match w.space with
    | .memory => 0
    | .io => 1)
  + bitCode w.readAllowed 4 + bitCode w.writeAllowed 5
  + (match w.posting with
    | .absorb => 0
    | .pass => 2 ^ 8)
  + (match w.granule with
    | .whole => 0
    | .g128 => 2 ^ 12
    | .g256 => 2 * 2 ^ 12)
  + (match w.lockBinding with
    | none => 0
    | some k => 2 ^ 16 + k.toNat * 2 ^ 20)

/-- A split granule code, 13..12 of the attributes (Table 11-11); 3 is undefined. -/
def Granule.ofCode : Nat → Option Granule
  | 0 => some .whole
  | 1 => some .g128
  | 2 => some .g256
  | _ => none

/-- The window with its six attributes as the value `v` encodes them, or nothing where a subfield holds an
undefined code (R195, R182). Reserved bits are ignored. -/
def Window.withAttributes (w : Window) (v : Nat) : Option Window :=
  match Space.ofCode (BitVec.ofNat 8 (bitsOf v 1 0)), Granule.ofCode (bitsOf v 13 12) with
  | some sp, some g =>
    some { w with
      space := sp
      readAllowed := bitsOf v 4 4 = 1
      writeAllowed := bitsOf v 5 5 = 1
      posting := if bitsOf v 8 8 = 1 then .pass else .absorb
      granule := g
      lockBinding := if bitsOf v 16 16 = 1 then some (BitVec.ofNat 4 (bitsOf v 23 20)) else none }
  | _, _ => none

/-- The fault record field as it reads (Table 11-11, R183). -/
def faultCode : Option FaultRecord → Nat
  | none => 0
  | some f => 2 ^ 31 + f.node.toNat * 2 ^ 16 + f.status.code.toNat * 2 ^ 8 + f.later

/-- The lock holder field as it reads (Table 11-11, R138): `waits` says whether the grant waits in the outbox. -/
def holderCode (holder : Option (Node × Port)) (waits : Bool) : Nat :=
  match holder with
  | none => 0
  | some (n, p) => 2 ^ 31 + bitCode waits 30 + portIndex p * 2 ^ 16 + n.toNat

/-- A manager entry as it reads (Table 11-11). -/
def ManagerEntry.code (m : ManagerEntry) : Nat := bitCode m.valid 31 + portIndex m.port * 2 ^ 24 + m.node.toNat

/-- The manager entry that the value `v` encodes, or nothing for port 2 or 3 or a node above 1023 (R178, R195). -/
def ManagerEntry.ofCode (v : Nat) : Option ManagerEntry :=
  if 1 < bitsOf v 25 24 ∨ 1023 < bitsOf v 15 0 then none
  else some
    { valid := bitsOf v 31 31 = 1
      node := BitVec.ofNat 10 (bitsOf v 15 0)
      port := if bitsOf v 25 24 = 1 then .d else .u }

end Sys2Proof.Machine
end

