-- ==== Sys2Proof/Machine/Ops.lean ====
section
/-! DEFINITION. Shared operations: access to the parts of the state, free orders, raises (08), the completion queues (05) and the egress request queues with their stall timers (06). -/

namespace Sys2Proof.Machine

/-! ## Ports, directions and tables (R21) -/

/-- The other port. -/
def otherPort : Port → Port
  | .u => .d
  | .d => .u

/-- The direction of traffic that arrives at a port, and the window table that its admission unit consults (R21). -/
def dirOf : Port → Dir
  | .u => .down
  | .d => .up

/-- The forward port of a direction (R21). -/
def forwardPort : Dir → Port
  | .down => .d
  | .up => .u

/-- The origin port of a direction (R21). -/
def originPort : Dir → Port
  | .down => .u
  | .up => .d

/-- The other direction. -/
def otherDir : Dir → Dir
  | .down => .up
  | .up => .down

/-! ## Access to the state -/

/-- Port `p`. -/
def State.port (s : State) : Port → PortState
  | .u => s.portU
  | .d => s.portD

/-- Port `p` replaced. -/
def State.setPort (s : State) (p : Port) (x : PortState) : State :=
  match p with
  | .u => { s with portU := x }
  | .d => { s with portD := x }

/-- Window `w` of table `t`. -/
def State.window (s : State) (t : Dir) (w : Fin 16) : Window :=
  match t with
  | .down => s.down[w]
  | .up => s.up[w]

/-- Window `w` of table `t` replaced. -/
def State.setWindow (s : State) (t : Dir) (w : Fin 16) (x : Window) : State :=
  match t with
  | .down => { s with down := s.down.set w x }
  | .up => { s with up := s.up.set w x }

/-- Entry `e`; FREE is `none` (R72). -/
def State.entry (s : State) (e : Fin 64) : Option Entry := s.entries[e]

/-- Entry `e` replaced. -/
def State.setEntry (s : State) (e : Fin 64) (x : Option Entry) : State :=
  { s with entries := s.entries.set e x }

/-- Lock `k`. -/
def State.lock (s : State) (k : Fin 8) : Lock := s.locks[k]

/-- Lock `k` replaced. -/
def State.setLock (s : State) (k : Fin 8) (x : Lock) : State :=
  { s with locks := s.locks.set k x }

/-- The reserve of a direction (R74). -/
def State.reserve (s : State) : Dir → Nat
  | .down => s.reserveDown
  | .up => s.reserveUp

/-- The reserve of a direction replaced. -/
def State.setReserve (s : State) (x : Dir) (v : Nat) : State :=
  match x with
  | .down => { s with reserveDown := v }
  | .up => { s with reserveUp := v }

/-- tCTO of a direction (R75). -/
def State.tcto (s : State) : Dir → TCto
  | .down => s.tctoDown
  | .up => s.tctoUp

/-- tCTO of a direction replaced. -/
def State.setTcto (s : State) (x : Dir) (v : TCto) : State :=
  match x with
  | .down => { s with tctoDown := v }
  | .up => { s with tctoUp := v }

/-- The class of a notice kind (R162). -/
def State.noticeClass (s : State) (k : NoticeKind) : NoticeClass := s.notices.classes[noticeIndex k]

/-- All windows' numbers. -/
def allWindows : List (Fin 16) := List.finRange 16

/-- All entries' numbers. -/
def allEntries : List (Fin 64) := List.finRange 64

/-- All locks' numbers. -/
def allLocks : List (Fin 8) := List.finRange 8

/-- `f` applied to each element of a vector (by lists, so that the kernel can evaluate it). -/
def mapVector {α β : Type} {n : Nat} (f : α → β) (v : Vector α n) : Vector β n :=
  ⟨(v.toList.map f).toArray, by simp⟩

/-- in_use of a direction (R62): how many of its entries are not FREE. -/
def State.inUse (s : State) (x : Dir) : Nat :=
  s.entries.toList.countP (fun o => match o with
    | some e => decide (e.dir = x)
    | none => false)

/-! ## Free orders (notes/assumptions/3.md) -/

/-- `x` put into a list at place `i`. -/
def insertAt {α : Type} (i : Nat) (x : α) (l : List α) : List α := l.take i ++ x :: l.drop i

/-- The list in an order that draw `n` of the free value picks: any permutation. -/
def freeArrange {α : Type} (n : Nat) : List α → List α
  | [] => []
  | x :: xs =>
    match freeArrange n xs with
    | [] => [x]
    | y :: ys => insertAt (Config.freeOrder n (ys.length + 1) % (ys.length + 2)) x (y :: ys)

/-- Two lists merged, each in its own order, as draw `n` of the free value picks; `fuel` is their total length. -/
def freeMergeAux {α : Type} (n : Nat) : Nat → List α → List α → List α
  | 0, xs, ys => xs ++ ys
  | _ + 1, [], ys => ys
  | _ + 1, x :: xs, [] => x :: xs
  | fuel + 1, x :: xs, y :: ys =>
    if Config.freeOrder n fuel % 2 = 0 then x :: freeMergeAux n fuel xs (y :: ys)
    else y :: freeMergeAux n fuel (x :: xs) ys

/-- Two lists merged in a free order (R161). -/
def freeMerge {α : Type} (n : Nat) (xs ys : List α) : List α := freeMergeAux n (xs.length + ys.length) xs ys

/-- The state with `k` draws of the free value used up. -/
def State.drawn (s : State) (k : Nat) : State := { s with freeNext := s.freeNext + k }

/-! ## Raises (08 8.1) -/

/-- A raise: a kind and its detail fields (R159). -/
structure Raise where
  kind : NoticeKind
  details : Details
  deriving DecidableEq, Repr

/-- `n` losses counted: `since` more in dropped-since-last and `n` in the total, both saturating (R160, R167). -/
def NoticeUnit.dropped (u : NoticeUnit) (since n : Nat) : NoticeUnit :=
  { u with
    droppedSince := min 65535 (u.droppedSince + since)
    droppedTotal := min 4294967295 (u.droppedTotal + n) }

/-- The notice unit judges a raise (R160), with the timestamp of the raise (R159). -/
def raise (x : Raise) (s : State) : State :=
  match s.noticeClass x.kind, s.notices.targetPort with
  | .off, _ => s
  | _, none => s
  | c, some _ =>
    if 16 ≤ s.notices.queue.length then { s with notices := s.notices.dropped 1 1 }
    else
      { s with
        notices := { s.notices with
          queue := s.notices.queue ++
            [{ kind := x.kind, cls := c, timestamp := s.timebase.msCount, details := x.details }] } }

/-- Raises judged one after the other (R161). -/
def raiseAll (xs : List Raise) (s : State) : State := xs.foldl (fun s x => raise x s) s

/-- Raises of an event split in two, in their order, at a place that draw `n` of the free value picks (R161). -/
def freeSplit (n : Nat) (es : List Raise) : List Raise × List Raise :=
  match es with
  | [] => ([], [])
  | _ :: _ =>
    let m := Config.freeOrder n 0 % (es.length + 1)
    (es.take m, es.drop m)

/-- The oldest URGENT record, else the oldest record, with the rest of the queue (R164). -/
def nextRecord (q : List NoticeRecord) : Option (NoticeRecord × List NoticeRecord) :=
  match q.find? (fun r => decide (r.cls = .urgent)) with
  | some r => some (r, q.erase r)
  | none =>
    match q with
    | [] => none
    | r :: rest => some (r, rest)

/-! ## Completion queues (05) -/

/-- A completion placed at the tail of port `p`'s completion queue (R101). -/
def place (p : Port) (c : Completion) (s : State) : State :=
  s.setPort p { s.port p with completions := (s.port p).completions ++ [c] }

/-- A completion without detail, as the agent, the lock unit and admission place it (Table 5-2). -/
def answerOf (node : Node) (tag : Tag) (st : Status) (data : List Byte) : Completion where
  node := node
  tag := tag
  status := st
  detail := none
  data := data

/-! ## Egress request queues and the stall timer (06) -/

/-- The three conditions of R126: the port is UP, its egress queue is not empty and its counter is 0. -/
def PortState.waitsForCredit (x : PortState) : Bool :=
  decide (x.link = .up) && !x.egress.isEmpty && decide (x.credits = 0)

/-- Packets placed at the tail of an egress request queue (R120). The stall timer starts where the placement makes
the conditions of R126 hold. -/
def PortState.enqueue (x : PortState) (ks : List EgressPacket) : PortState :=
  let y := { x with egress := x.egress ++ ks }
  if !x.waitsForCredit && y.waitsForCredit then { y with stallTimer := y.tStall.ticks } else y

/-- Packets placed in port `p`'s egress request queue. -/
def enqueue (p : Port) (ks : List EgressPacket) (s : State) : State :=
  s.setPort p ((s.port p).enqueue ks)

/-- The packets of entry `e` withdrawn from an egress request queue; a queue left empty stops the stall timer (R121). -/
def PortState.withdraw (x : PortState) (e : Fin 64) : PortState :=
  let rest := x.egress.filter (fun k => match k with
    | .segment e' _ _ => decide (e' ≠ e)
    | _ => true)
  { x with egress := rest, stallTimer := if rest.isEmpty then none else x.stallTimer }

/-- The notices among packets. -/
def noticesOf (ks : List EgressPacket) : List StampedNotice :=
  ks.filterMap (fun k => match k with
    | .notice n => some n
    | _ => none)

/-- Stamped notices flushed from an egress queue, counted one after the other (R167). -/
def countFlushed (ns : List StampedNotice) (s : State) : State :=
  { s with notices := ns.foldl (fun u n => u.dropped (1 + n.dropped) 1) s.notices }

/-- The raises that the PASS segments of a flushed queue give, in queue order (R127, R132). -/
def passRaises (st : Status) (ks : List EgressPacket) : List Raise :=
  ks.filterMap (fun k => match k with
    | .pass node t w packet => some
        { kind := .refusedPostedWrite
          details :=
            { port := some (originPort t), node := some node, address := some packet.address,
              status := some st.code, window := some (t, w) } }
    | _ => none)

/-- The entries whose segments stand in packets, in queue order, each once. -/
def entriesOf (ks : List EgressPacket) : List (Fin 64) :=
  (ks.filterMap (fun k => match k with
    | .segment e _ _ => some e
    | _ => none)).eraseDups

/-! ## Windows' counts (02 2.7) -/

/-- An entry charged to a window, and the request counted (R43, R44, R64). -/
def Window.charge (w : Window) : Window := { w with inFlight := w.inFlight + 1, hits := w.hits + 1 }

/-- A charge released; a DRAINING window whose count reaches 0 becomes DISABLED (R43, R37). -/
def Window.release (w : Window) : Window :=
  { w with
    inFlight := w.inFlight - 1
    state := if w.state = .draining ∧ w.inFlight - 1 = 0 then .disabled else w.state }

/-- A failed absorbed write applied to a window, with the record it creates (R40). A DISABLED window holds no charge
(R43), so no failure is applied to one; the model changes nothing there (notes/assumptions/16.md). -/
def Window.applyFailure (w : Window) (f : FaultRecord) : Window :=
  match w.state with
  | .active => { w with state := .faulted, fault := some f }
  | .disabled => w
  | .faulted | .draining =>
    match w.fault with
    | none => { w with fault := some f }
    | some g => { w with fault := some { g with later := min 255 (g.later + 1) } }

end Sys2Proof.Machine
end

