-- ==== Sys2Proof/Machine/Table.lean ====
section
/-! DEFINITION. The request table (04): cutting into segments, allocation, departures, matching, results, delivery, timeout and quarantine, stall and link loss. -/

namespace Sys2Proof.Machine

/-! ## Segments (4.2) -/

/-- A split granule's size; NONE has none (R23). -/
def Granule.size : Granule → Option Nat
  | .whole => none
  | .g128 => some 128
  | .g256 => some 256

/-- How many segments a request of `length` bytes from translated address `a` has (R61). -/
def segmentCount (g : Granule) (a length : Nat) : Nat :=
  match g.size with
  | none => 1
  | some n => (a + length - 1) / n - a / n + 1

/-- Offset and length of segment `k` under granule size `n`: segment 0 starts at the request's first byte, each
later one at the next multiple of `n`, the last one ends at the request's last byte (R76). -/
def cutSegment (n a length k : Nat) : Nat × Nat :=
  let start := if k = 0 then a else (a / n + k) * n
  let stop := min ((a / n + k + 1) * n) (a + length)
  (start - a, stop - start)

/-- The segments' offsets and lengths, in segment order (R76). -/
def cutSegments (g : Granule) (a length : Nat) : List (Nat × Nat) :=
  match g.size with
  | none => [(0, length)]
  | some n => (List.range (segmentCount g a length)).map (cutSegment n a length)

/-- The bridge tag of segment `k` of entry `e` (R77). -/
def bridgeTag (e : Fin 64) (k : Nat) : Tag := BitVec.ofNat 8 (4 * e.val + k)

/-- A segment's share of a request's data (R76). -/
def shareOf (data : List Byte) (offset length : Nat) : List Byte := (data.drop offset).take length

/-! ## Entries -/

/-- The lowest-numbered FREE entry (R73). -/
def State.firstFree (s : State) : Option (Fin 64) := allEntries.find? (fun e => (s.entry e).isNone)

/-- The reservation after one more entry of direction `x` (R62): in_use(X) + max(reserve(Y), in_use(Y)) ≤ 64. -/
def State.withinReservation (s : State) (x : Dir) : Bool :=
  decide (s.inUse x + 1 + max (s.reserve (otherDir x)) (s.inUse (otherDir x)) ≤ 64)

/-- The entry that an admission take at port `p` allocates (R73, R64, R65). The read data buffer has the
request's length (notes/assumptions/13.md). -/
def newEntry (p : Port) (kind : EntryKind) (r : Request) (w : Fin 16) (win : Window) (address : Addr) : Entry where
  state := .pending
  dir := dirOf p
  kind := kind
  node := r.src
  tag := r.tag
  orphaned := false
  window := w
  target := win.target
  address := address
  length := r.length.toNat
  segments := (cutSegments win.granule address.toNat r.length.toNat).map
    (fun c => { offset := c.1, length := c.2, state := .notSent })
  buffer := match kind with
    | .read => List.replicate r.length.toNat 0
    | _ => []
  deadline := none
  result := none
  tQuar := none
  quarantine := none

/-- Is a segment resolved, that is OK or FAILED (Table 4-5)? -/
def SegState.resolved : SegState → Bool
  | .ok => true
  | .failed _ => true
  | _ => false

/-- The failure of a failed segment. -/
def SegState.failure : SegState → Option Failure
  | .failed f => some f
  | _ => none

/-- Is every segment resolved (R84)? -/
def Entry.resolved (e : Entry) : Bool := e.segments.all (fun g => g.state.resolved)

/-- Has a segment status TIMEOUT (R87)? -/
def Entry.timedOut (e : Entry) : Bool := e.segments.any (fun g => decide (g.state = .failed .timeout))

/-- Is a segment still NOT_SENT? -/
def Entry.unsent (e : Entry) : Bool := e.segments.any (fun g => decide (g.state = .notSent))

/-- The result that resolved segments form: the lowest-numbered failure, or OK (R84). -/
def Entry.formResult (e : Entry) : Result :=
  match e.segments.findSome? (fun g => g.state.failure) with
  | some f => .failed f
  | none => .ok

/-- The entry with each segment's state changed by `f`. -/
def Entry.mapStates (e : Entry) (f : SegState → SegState) : Entry :=
  { e with segments := e.segments.map (fun g => { g with state := f g.state }) }

/-- The entry with segment `k`'s state replaced. -/
def Entry.setState (e : Entry) (k : Nat) (st : SegState) : Entry :=
  { e with segments := e.segments.modify k (fun g => { g with state := st }) }

/-- NOT_SENT segments failed with `f` (R94). -/
def failUnsent (f : Failure) : SegState → SegState
  | .notSent => .failed f
  | st => st

/-- NOT_SENT and SENT segments failed with `f` (R86, R95). -/
def failOpen (f : Failure) : SegState → SegState
  | .notSent => .failed f
  | .sent => .failed f
  | st => st

/-- A TIMEOUT mark changed to LINK_DOWN (R95, DONE). -/
def timeoutToLinkDown : SegState → SegState
  | .failed .timeout => .failed .linkDown
  | st => st

/-- The status of a result. -/
def Result.status : Result → Status
  | .ok => .ok
  | .failed f => f.status

/-- The detail of a result (R84). -/
def Result.detail : Result → Option Byte
  | .ok => none
  | .failed f => f.detail

/-! ## Delivery (4.7) -/

/-- An entry's charge released at its window (R43, R37). -/
def releaseWindow (e : Entry) (s : State) : State :=
  s.setWindow e.dir e.window (s.window e.dir e.window).release

/-- The end of a delivery: the window's charge ends, and the entry goes to QUARANTINED when a segment timed out,
else to FREE (R90 to R93, R87). -/
def deliver (e : Fin 64) (x : Entry) (s : State) : State :=
  { (releaseWindow x s).setEntry e
      (if x.timedOut then
        some { x with state := .quarantined, buffer := [], deadline := none, quarantine := x.tQuar }
      else none) with
    doneOrder := s.doneOrder.erase e }

/-- The raise of a failed absorbed write (R40, Table 8-1). -/
def absorbedRaise (x : Entry) (st : Status) : Raise where
  kind := .absorbedWriteFailed
  details :=
    { window := some (x.dir, x.window), address := some x.address, node := some x.node, status := some st.code }

/-- A failed absorbed write applied to its window, with its raise (R40). -/
def applyFailure (x : Entry) (st : Status) (s : State) : State × List Raise :=
  let w := s.window x.dir x.window
  (s.setWindow x.dir x.window
    (w.applyFailure { address := x.address, node := x.node, status := st, later := 0 }),
    if w.state = .disabled then [] else [absorbedRaise x st])

/-- A PENDING or ISSUED entry whose segments are all resolved takes its result (R84) and its delivery begins: an
ABSORBED entry is applied to its window and delivered (R91), an orphaned one is delivered without an answer (R92),
any other becomes DONE, last in the done order (R90). The window table's raises are handed out. -/
def takeResult (e : Fin 64) (s : State) : State × List Raise :=
  match s.entry e with
  | none => (s, [])
  | some x =>
    if (x.state = .pending ∨ x.state = .issued) ∧ x.resolved = true then
      let r := x.formResult
      let y := { x with result := some r, deadline := none }
      match x.kind with
      | .absorbed =>
        match r with
        | .ok => (deliver e y s, [])
        | .failed f =>
          let a := applyFailure y f.status s
          (deliver e y a.1, a.2)
      | _ =>
        if x.orphaned then (deliver e y s, [])
        else
          ({ s.setEntry e (some { y with state := .done }) with doneOrder := s.doneOrder ++ [e] }, [])
    else (s, [])

/-- Results taken one entry after the other. -/
def takeResults (es : List (Fin 64)) (s : State) : State × List Raise :=
  es.foldl (fun a e => let b := takeResult e a.1; (b.1, a.2 ++ b.2)) (s, [])

/-- The completion of a DONE entry (R90, R107): data only for a READ result of OK (R108). -/
def Entry.completion (x : Entry) : Completion where
  node := x.node
  tag := x.tag
  status := (x.result.getD .ok).status
  detail := (x.result.getD .ok).detail
  data := match x.kind, x.result.getD .ok with
    | .read, .ok => x.buffer
    | _, _ => []

/-- A DONE entry given a slot of its origin port's queue: its completion placed and the entry delivered (R90). -/
def deliverDone (e : Fin 64) (s : State) : State :=
  match s.entry e with
  | none => s
  | some x => deliver e x (place (originPort x.dir) x.completion s)

/-! ## Departure (R79) -/

/-- An entry whose NOT_SENT segment `k` has left: SENT, the deadline set at the entry's first departure, ISSUED when no
segment is NOT_SENT (R79). `setting` is the tCTO of its direction at the departure. -/
def Entry.departed (x : Entry) (k : Nat) (setting : TCto) : Entry :=
  let y := x.setState k .sent
  { y with
    deadline :=
      if x.segments.all (fun g => decide (g.state = .notSent)) then
        setting.ticks.map (fun t => { remaining := t, setting := setting })
      else x.deadline
    state := if y.unsent then .pending else .issued }

/-- Segment `k` of entry `e` has left (R79). A queued packet always stands for a NOT_SENT segment (R78); else the table has
nothing to change. -/
def segmentSent (e : Fin 64) (k : Nat) (s : State) : State :=
  match s.entry e with
  | none => s
  | some x =>
    match x.segments[k]? with
    | none => s
    | some g => if g.state = .notSent then s.setEntry e (some (x.departed k (s.tcto x.dir))) else s

/-! ## Arriving completions (4.4) -/

/-- Entry and segment that a bridge tag names (R80). -/
def tagEntry (t : Tag) : Fin 64 := ⟨t.toNat / 4, by have := t.isLt; omega⟩

/-- Segment number of a bridge tag (R80). -/
def tagSegment (t : Tag) : Nat := t.toNat % 4

/-- Does the completion match a segment (R80)? -/
def matchesSegment (p : Port) (c : CplPacket) (x : Entry) (g : Segment) : Bool :=
  (decide (x.state = .pending) || decide (x.state = .issued)) && decide (forwardPort x.dir = p)
    && decide (g.state = .sent) && decide (c.src = x.target)

/-- Is the completion a late one for a segment (R81)? -/
def lateForSegment (p : Port) (x : Entry) (g : Segment) : Bool :=
  (decide (x.state = .done) || decide (x.state = .quarantined)) && decide (forwardPort x.dir = p)
    && decide (g.state = .failed .timeout)

/-- What a matched completion makes of its segment (R83). -/
def judgeAnswer (x : Entry) (g : Segment) (c : CplPacket) : SegState :=
  if c.status ≠ 0 then .failed (.targetError c.status)
  else
    match x.kind with
    | .read => if c.data.length = g.length then .ok else .failed .malformed
    | _ => if c.data = [] then .ok else .failed .malformed

/-- Bytes stored in a buffer from `offset` on (R83). -/
def storeAt (buffer data : List Byte) (offset : Nat) : List Byte :=
  buffer.take offset ++ data ++ buffer.drop (offset + data.length)

/-- The entry with segment `k` resolved by completion `c` (R83). -/
def resolveSegment (x : Entry) (k : Nat) (g : Segment) (c : CplPacket) : Entry :=
  let st := judgeAnswer x g c
  let y := x.setState k st
  if x.kind = .read ∧ st = .ok then { y with buffer := storeAt x.buffer c.data g.offset } else y

/-- One more completion counted stray at port `p` (R19). -/
def countStray (p : Port) (s : State) : State :=
  s.setPort p { s.port p with stray := (s.port p).stray + 1 }

/-- The raise of a late completion (R81). -/
def lateRaise (p : Port) (x : Entry) (g : Segment) (c : CplPacket) : Raise where
  kind := .lateCompletion
  details :=
    { port := some p, window := some (x.dir, x.window), address := some (x.address + BitVec.ofNat 40 g.offset),
      node := some c.src, status := some c.status }

/-- The raise of a stray completion (R82, R14): `status` only where the request table raises it (Table 8-1). -/
def strayRaise (p : Port) (c : CplPacket) (status : Option Byte) : Raise where
  kind := .strayCompletion
  details := { port := some p, node := some c.src, status := status }

/-- A completion addressed to port `p` reaches the request table: matched (R80, R83, R84), late (R81) or stray (R82). Its raises
are handed out. -/
def tableCompletion (p : Port) (c : CplPacket) (s : State) : State × List Raise :=
  let e := tagEntry c.tag
  let k := tagSegment c.tag
  match s.entry e with
  | none => (countStray p s, [strayRaise p c (some c.status)])
  | some x =>
    match x.segments[k]? with
    | none => (countStray p s, [strayRaise p c (some c.status)])
    | some g =>
      if matchesSegment p c x g then takeResult e (s.setEntry e (some (resolveSegment x k g c)))
      else if lateForSegment p x g then (countStray p s, [lateRaise p x g c])
      else (countStray p s, [strayRaise p c (some c.status)])

/-! ## Timeout and quarantine (4.6) -/

/-- The raise of a completion timeout (R86). -/
def timeoutRaise (x : Entry) : Raise where
  kind := .completionTimeout
  details :=
    { port := some (forwardPort x.dir), window := some (x.dir, x.window), address := some x.address,
      node := some x.target }

/-- An entry's completion deadline expires (R86): SENT segments time out, NOT_SENT ones are withdrawn (R121) and time
out, COMPLETION_TIMEOUT is raised, the entry takes its result and its delivery begins. tQUAR is fixed here (R87). The raises of
the request table and of the window table are handed out in a free order (R161). -/
def expireDeadline (e : Fin 64) (s : State) : State × List Raise :=
  match s.entry e with
  | none => (s, [])
  | some x =>
    match x.deadline with
    | none => (s, [])
    | some d =>
      let p := forwardPort x.dir
      let tQuar := match (s.tcto x.dir).ticks with
        | some t => some t
        | none => d.setting.ticks
      let y := { x.mapStates (failOpen .timeout) with tQuar := tQuar }
      let s1 := s.setPort p ((s.port p).withdraw e)
      let a := takeResult e (s1.setEntry e (some y))
      (if a.2 = [] then a.1 else a.1.drawn 1, freeMerge s.freeNext [timeoutRaise x] a.2)

/-- The quarantine deadline of a QUARANTINED entry expires: the entry becomes FREE (R87). -/
def expireQuarantine (e : Fin 64) (s : State) : State :=
  match s.entry e with
  | none => s
  | some x => if x.state = .quarantined ∧ x.quarantine.isSome = true then s.setEntry e none else s

/-! ## Stall and link loss (4.8) -/

/-- Is the entry a READ or CONFIRMED one? -/
def State.answered (s : State) (e : Fin 64) : Bool :=
  match s.entry e with
  | some x => decide (x.kind ≠ .absorbed)
  | none => false

/-- The entries whose direction satisfies `f`, lowest number first. -/
def State.entriesWith (s : State) (f : Entry → Bool) : List (Fin 64) :=
  allEntries.filter (fun e => match s.entry e with
    | some x => f x
    | none => false)

/-- Each entry of a list changed by `f`. -/
def mapEntries (es : List (Fin 64)) (f : Entry → Entry) (s : State) : State :=
  es.foldl (fun s e => s.setEntry e ((s.entry e).map f)) s

/-- An entry whose unsent segments a stall has flushed: FAILED PORT_STALLED, ISSUED where it still waits (R94). -/
def stallEntry (x : Entry) : Entry :=
  { x.mapStates (failUnsent .portStalled) with state := .issued }

/-- The stall flush of the segments in `ks` (R94): READ and CONFIRMED entries take results in entry-number order (R90),
ABSORBED ones in queue order (R127; notes/assumptions/18.md). -/
def stallEntries (ks : List EgressPacket) (s : State) : State × List Raise :=
  let es := (entriesOf ks).filter (fun e => match s.entry e with
    | some x => decide (x.state = .pending)
    | none => false)
  let s1 := mapEntries es stallEntry s
  takeResults (allEntries.filter (fun e => es.contains e && s.answered e) ++ es.filter (fun e => !s.answered e)) s1

/-- What a link loss of the forward port makes of a PENDING or ISSUED entry: every unresolved segment fails with
LINK_DOWN (R95). -/
def linkDownOpen (x : Entry) : Entry := x.mapStates (failOpen .linkDown)

/-- What a link loss of the forward port makes of a DONE entry: TIMEOUT marks become LINK_DOWN (R95). -/
def linkDownDone (x : Entry) : Entry := x.mapStates timeoutToLinkDown

/-- The link loss of port `p` at the entries forwarded there (R95). Draw `n` orders the ABSORBED ones. -/
def forwardLinkLoss (n : Nat) (p : Port) (s : State) : State × List Raise :=
  let ours := fun (x : Entry) => decide (forwardPort x.dir = p)
  let openOnes := s.entriesWith (fun x => ours x && (decide (x.state = .pending) || decide (x.state = .issued)))
  let doneOnes := s.entriesWith (fun x => ours x && decide (x.state = .done))
  let held := s.entriesWith (fun x => ours x && decide (x.state = .quarantined))
  let s1 := mapEntries openOnes linkDownOpen s
  let s2 := mapEntries doneOnes linkDownDone s1
  let s3 := held.foldl (fun s e => s.setEntry e none) s2
  takeResults (openOnes.filter s.answered ++ freeArrange n (openOnes.filter (fun e => !s.answered e))) s3

/-- The link loss of port `p` at the entries that arrived there (R96): PENDING and ISSUED ones become orphaned, DONE
ones are delivered without an answer (R92). -/
def originLinkLoss (p : Port) (s : State) : State :=
  let ours := fun (x : Entry) => decide (originPort x.dir = p)
  let openOnes := s.entriesWith (fun x => ours x && (decide (x.state = .pending) || decide (x.state = .issued)))
  let doneOnes := s.entriesWith (fun x => ours x && decide (x.state = .done))
  let s1 := mapEntries openOnes (fun x => { x with orphaned := true }) s
  doneOnes.foldl (fun s e => match s.entry e with
    | some x => deliver e { x with orphaned := true } s
    | none => s) s1

end Sys2Proof.Machine
end

