-- ==== Sys2Proof/Machine/Locks.lean ====
section
/-! DEFINITION. The lock unit (07): grants, hand-on, ACQUIRE, RELEASE, BREAK, expiries and link loss. -/

namespace Sys2Proof.Machine

/-- A setting in milliseconds as ticks, absent for 0 (R137, R188). -/
def msTicks (v : BitVec 16) : Option Nat := if v = 0 then none else some (1000 * v.toNat)

/-- The raise of an ended hold (R147, R148, R153). -/
def lockRaise (k : Fin 8) (holder : Node × Port) (cause : Cause) : Raise where
  kind := .lockExpired
  details := { lock := some k, node := some holder.1, port := some holder.2, cause := some cause }

/-- A grant to (`node`, `port`), whose ACQUIRE carried `tag` (R141 steps 1 to 3): the generation increments, the pair
becomes holder and the grant completion waits in the outbox as the claim that R104 gives a slot. -/
def Lock.grant (x : Lock) (node : Node) (port : Port) (tag : Tag) : Lock :=
  { x with
    generation := x.generation + 1
    holder := some (node, port)
    outbox := some
      { port := port, answer := answerOf node tag .ok (bytesBE 4 (x.generation + 1).toNat) } }

/-- The lock handed on (R142): with no holder, an empty outbox and a waiter, the head waiter is granted. -/
def Lock.handOn (x : Lock) : Lock :=
  match x.holder, x.outbox, x.waiters with
  | none, none, w :: ws => { x with waiters := ws }.grant w.node w.port w.tag
  | _, _, _ => x

/-- The hold ended: holder and lease deadline removed, the lock handed on (R145, R147, R148). -/
def Lock.endHold (x : Lock) : Lock := { x with holder := none, lease := none }.handOn

/-- The lock after its outbox completion has been placed (R146): an OK grant starts the lease (R141 step 5), a
LOCK_BROKEN one lets the lock be handed on (R142). -/
def Lock.outboxPlaced (x : Lock) (st : Status) : Lock :=
  if st = .ok then { x with outbox := none, lease := msTicks x.tLease } else { x with outbox := none }.handOn

/-- The outbox completion of lock `k` placed in its port's queue (R146). -/
def placeOutbox (k : Fin 8) (s : State) : State :=
  match (s.lock k).outbox with
  | none => s
  | some h => place h.port h.answer (s.setLock k ((s.lock k).outboxPlaced h.answer.status))

/-- Lock `k`'s oldest expiry answer for port `p` placed (R151). -/
def placeExpired (k : Fin 8) (p : Port) (s : State) : State :=
  match (s.lock k).expired.find? (fun h => decide (h.port = p)) with
  | none => s
  | some h => place p h.answer (s.setLock k { s.lock k with expired := (s.lock k).expired.erase h })

/-! ## ACQUIRE, RELEASE and BREAK -/

/-- Does (`node`, `port`) stand in the wait list? -/
def Lock.hasWaiter (x : Lock) (node : Node) (port : Port) : Bool :=
  x.waiters.any (fun w => decide (w.node = node ∧ w.port = port))

/-- A waiter appended (R144). -/
def Lock.append (x : Lock) (node : Node) (port : Port) (tag : Tag) : Lock :=
  { x with waiters := x.waiters ++ [{ node := node, port := port, tag := tag, deadline := msTicks x.tWait }] }

/-- ACQUIRE of lock `k` from (`node`, `port`) with `tag`, the head's slot given (R140, Table 7-2). -/
def acquire (k : Fin 8) (node : Node) (port : Port) (tag : Tag) (s : State) : State :=
  let x := s.lock k
  if x.holder = none ∧ x.outbox = none ∧ x.waiters = [] then
    placeOutbox k (s.setLock k (x.grant node port tag))
  else if x.holder = some (node, port) then
    place port (answerOf node tag .ok (bytesBE 4 x.generation.toNat))
      (s.setLock k { x with lease := msTicks x.tLease })
  else if x.hasWaiter node port then place port (answerOf node tag .duplicate []) s
  else if 4 ≤ x.waiters.length then place port (answerOf node tag .busy []) s
  else s.setLock k (x.append node port tag)

/-- RELEASE of lock `k` from (`node`, `port`) with `tag` and generation `g` (R145). -/
def release (k : Fin 8) (node : Node) (port : Port) (tag : Tag) (g : Word32) (s : State) : State :=
  let x := s.lock k
  if x.holder = some (node, port) ∧ g = x.generation then
    place port (answerOf node tag .ok []) (s.setLock k x.endHold)
  else place port (answerOf node tag .notHolder []) s

/-- The outbox grant of a broken hold: LOCK_BROKEN and no data (R147, R110). -/
def HeldAnswer.broken (h : HeldAnswer) : HeldAnswer :=
  { h with answer := { h.answer with status := .lockBroken, data := [] } }

/-- BREAK of lock `k` (R147). Its raise is `breakRaises`. -/
def breakHold (k : Fin 8) (s : State) : State :=
  let x := s.lock k
  match x.holder with
  | none => s
  | some _ =>
    s.setLock k (match x.outbox with
      | none => x.endHold
      | some h => { x with holder := none, lease := none, outbox := some h.broken })

/-- What a BREAK of lock `k` raises: LOCK_EXPIRED where there is a holder (R147). -/
def breakRaises (k : Fin 8) (s : State) : List Raise := (s.lock k).holder.toList.map (fun pair => lockRaise k pair .broken)

/-! ## Expiries -/

/-- Lock `k`'s lease deadline expires (R148). Its raise is handed out. -/
def expireLease (k : Fin 8) (s : State) : State × List Raise :=
  let x := s.lock k
  match x.lease, x.holder with
  | some _, some pair => (s.setLock k x.endHold, [lockRaise k pair .lease])
  | some _, none => (s.setLock k { x with lease := none }, [])
  | none, _ => (s, [])

/-- The wait deadline of the waiter (`node`, `port`) of lock `k` expires (R150): it leaves the wait list and its
TIMEOUT answer becomes a claim on its port's queue (R151). -/
def expireWait (k : Fin 8) (node : Node) (port : Port) (s : State) : State :=
  let x := s.lock k
  match x.waiters.find? (fun w => decide (w.node = node ∧ w.port = port ∧ w.deadline.isSome = true)) with
  | none => s
  | some w =>
    s.setLock k { x with
      waiters := x.waiters.erase w
      expired := x.expired ++ [{ port := w.port, answer := answerOf w.node w.tag .timeout [] }] }

/-! ## Link loss -/

/-- A lock at a link loss of port `p` (R154, then R153): waiters and expiry answers on `p` leave, an outbox grant
addressed to `p` is discarded, a holder on `p` is removed, and the lock is handed on. -/
def Lock.linkLoss (p : Port) (x : Lock) : Lock :=
  let y := { x with
    waiters := x.waiters.filter (fun w => decide (w.port ≠ p))
    expired := x.expired.filter (fun h => decide (h.port ≠ p))
    outbox := x.outbox.filter (fun h => decide (h.port ≠ p)) }
  match x.holder with
  | some (_, q) => if q = p then y.endHold else y
  | none => y.handOn

/-- The raises of a link loss of port `p`, in lock-number order (R153). -/
def lockLinkRaises (p : Port) (s : State) : List Raise :=
  allLocks.filterMap (fun k => match (s.lock k).holder with
    | some (n, q) => if q = p then some (lockRaise k (n, q) .link) else none
    | none => none)

/-- The link loss of port `p` at every lock. -/
def locksLinkLoss (p : Port) (s : State) : State := { s with locks := mapVector (Lock.linkLoss p) s.locks }

/-- A lock at a soft reset (R157). -/
def Lock.softReset (x : Lock) : Lock :=
  { x with holder := none, lease := none, waiters := [], outbox := none, expired := [] }

end Sys2Proof.Machine
end

