-- ==== Sys2Proof/Machine/Windows.lean ====
section
/-! DEFINITION. The window tables (02): matching, translation, the ENABLE checks, the commands and the field writes. -/

namespace Sys2Proof.Machine

/-- The largest 40-bit address. -/
def lastAddress : Nat := 2 ^ 40 - 1

/-- Is the window in force, that is ACTIVE, FAULTED or DRAINING? -/
def Window.inForce (w : Window) : Bool := decide (w.state ≠ .disabled)

/-- Does the window match a request of `space` at `address` (R26)? -/
def Window.hits? (w : Window) (space : Space) (address : Addr) : Bool :=
  w.inForce && decide (w.space = space) && decide (w.base.toNat ≤ address.toNat)
    && decide (address.toNat ≤ w.limit.toNat)

/-- The window of table `t` that matches (R26): at most one does (R33). -/
def State.lookup (s : State) (t : Dir) (space : Space) (address : Addr) : Option (Fin 16) :=
  allWindows.find? (fun w => (s.window t w).hits? space address)

/-- The translated address of an address (R28). -/
def Window.translate (w : Window) (a : Addr) : Addr := a - w.base + w.translatedBase

/-! ## ENABLE (R30 to R35) -/

/-- ENABLE check 1: alignment and size (R31). -/
def Window.aligned (w : Window) : Bool :=
  decide (w.base.toNat % 4096 = 0) && decide ((w.limit.toNat + 1) % 4096 = 0)
    && decide (w.base.toNat + 4095 ≤ w.limit.toNat) && decide (w.translatedBase.toNat % 4096 = 0)

/-- ENABLE check 2: the translated range fits in 40 bits (R31). -/
def Window.fits (w : Window) : Bool :=
  decide (w.translatedBase.toNat + (w.limit.toNat - w.base.toNat) ≤ lastAddress)

/-- ENABLE check 4: no lock binding, or one that names a lock 0..7 (R32). -/
def Window.bindingOk (w : Window) : Bool :=
  match w.lockBinding with
  | none => true
  | some k => decide (k.toNat < 8)

/-- Do two windows' ranges share a byte (R33)? -/
def Window.meets (w v : Window) : Bool :=
  decide (w.base.toNat ≤ v.limit.toNat) && decide (v.base.toNat ≤ w.limit.toNat)

/-- ENABLE check 5: does window `w` of table `t` overlap another window in force of its table and space (R33)? -/
def State.overlapsAnother (s : State) (t : Dir) (w : Fin 16) : Bool :=
  allWindows.any (fun v => decide (v ≠ w) && (s.window t v).inForce
    && decide ((s.window t v).space = (s.window t w).space) && (s.window t w).meets (s.window t v))

/-- The outcome of ENABLE's checks, in the order of Table 2-5 (R30). -/
def State.enableStatus (s : State) (t : Dir) (w : Fin 16) : Status :=
  let x := s.window t w
  if x.state ≠ .disabled then .wrongState
  else if !x.aligned then .badValue
  else if !x.fits then .badValue
  else if x.target = (s.port (forwardPort t)).identity then .badValue
  else if !x.bindingOk then .badValue
  else if s.overlapsAnother t w then .overlap
  else .ok

/-- ENABLE (R30, R34). -/
def enableWindow (t : Dir) (w : Fin 16) (s : State) : Status × State :=
  match s.enableStatus t w with
  | .ok => (.ok, s.setWindow t w { s.window t w with state := .active, fault := none })
  | st => (st, s)

/-- DISABLE at a window (R36). -/
def Window.close (w : Window) : Window :=
  match w.state with
  | .active | .faulted => { w with state := if w.inFlight = 0 then .disabled else .draining }
  | .disabled | .draining => w

/-- CLEAR_FAULT at a window (R39). -/
def Window.clearFault (w : Window) : Window :=
  { w with fault := none, state := if w.state = .faulted then .active else w.state }

/-- A write of the command field with code `v` (R29, R195). -/
def windowCommand (t : Dir) (w : Fin 16) (v : Nat) (s : State) : Status × State :=
  match v with
  | 1 => enableWindow t w s
  | 2 => (.ok, s.setWindow t w (s.window t w).close)
  | 3 => (.ok, s.setWindow t w (s.window t w).clearFault)
  | _ => (.badValue, s)

/-! ## Field writes (R24) -/

/-- A configuration field written, given the window with the value in place, or nothing where the value has no
encoding: the form of the value is judged before the window's state (R195; notes/assumptions/10.md), then the
window must be DISABLED (R24). -/
def storeWindow (t : Dir) (w : Fin 16) (x : Option Window) (s : State) : Status × State :=
  match x with
  | none => (.badValue, s)
  | some y => if (s.window t w).state = .disabled then (.ok, s.setWindow t w y) else (.wrongState, s)

/-- An address value of the 8-byte fields: 2^40 or above is out of range (R195). -/
def addrOf (v : Nat) : Option Addr := if v < 2 ^ 40 then some (BitVec.ofNat 40 v) else none

/-- A node value: above 1023 is out of range (R195). -/
def nodeOf (v : Nat) : Option Node := if v ≤ 1023 then some (BitVec.ofNat 10 v) else none

/-- A write of the hit count in any state clears it (R24, R44). -/
def Window.clearHits (w : Window) : Window := { w with hits := 0 }

/-- A window at a soft reset (R46). -/
def Window.softReset (w : Window) : Window :=
  { w with inFlight := 0, state := if w.state = .draining then .disabled else w.state }

end Sys2Proof.Machine
end

