-- ==== Sys2Proof/Machine/Control.lean ====
section
/-! DEFINITION. The management agent (09): the CONTROL address, the fields, access, reads, the owners' judgement of writes, and the soft reset. -/

namespace Sys2Proof.Machine

/-- The fields of the management objects (Tables 9-4 to 9-6, 11-10), ACQUIRE and RELEASE apart. -/
inductive Field where
  | vendorCode
  | partCode
  | revision
  | msCount
  | linkState (p : Port)
  | identity (p : Port)
  | creditsHeld (p : Port)
  | slotsInUse (p : Port)
  | tStall (p : Port)
  | admitted (p : Port)
  | refused (p : Port)
  | stray (p : Port)
  | discard (p : Port)
  | windowState (t : Dir) (w : Fin 16)
  | attributes (t : Dir) (w : Fin 16)
  | base (t : Dir) (w : Fin 16)
  | limit (t : Dir) (w : Fin 16)
  | translatedBase (t : Dir) (w : Fin 16)
  | target (t : Dir) (w : Fin 16)
  | inFlight (t : Dir) (w : Fin 16)
  | hitCount (t : Dir) (w : Fin 16)
  | faultRecord (t : Dir) (w : Fin 16)
  | faultAddress (t : Dir) (w : Fin 16)
  | command (t : Dir) (w : Fin 16)
  | reserve (x : Dir)
  | tcto (x : Dir)
  | inUse (x : Dir)
  | entryState (e : Fin 64)
  | entryDirection (e : Fin 64)
  | entryKind (e : Fin 64)
  | entryNode (e : Fin 64)
  | entryWindow (e : Fin 64)
  | lockHolder (k : Fin 8)
  | generation (k : Fin 8)
  | waiterCount (k : Fin 8)
  | tLease (k : Fin 8)
  | tWait (k : Fin 8)
  | breakField (k : Fin 8)
  | noticePort
  | noticeNode
  | noticeClass (n : NoticeKind)
  | nextSequence
  | queueDepth
  | droppedSince
  | droppedTotal
  | manager (i : Fin 4)
  | divider
  | reset
  deriving DecidableEq, Repr

/-- The lock objects that admission hands to the lock unit (R54, R174). -/
inductive LockObject where
  | acquire (k : Fin 8)
  | release (k : Fin 8)
  deriving DecidableEq, Repr

/-! ## Addresses (R174, Table 11-5, Table 11-10) -/

/-- A CONTROL address from class, index and field offset (Table 11-5). -/
def controlAddress (cls index offset : Nat) : Addr := BitVec.ofNat 40 (cls * 65536 + index * 256 + offset)

/-- The class of a window table (Table 2-1). -/
def tableClass : Dir → Nat
  | .down => 0x10
  | .up => 0x11

/-- The address of a field (Table 11-10). -/
def Field.address : Field → Addr
  | .vendorCode => controlAddress 0x01 0 0x00
  | .partCode => controlAddress 0x01 0 0x04
  | .revision => controlAddress 0x01 0 0x08
  | .msCount => controlAddress 0x01 0 0x0C
  | .linkState p => controlAddress 0x02 (portIndex p) 0x00
  | .identity p => controlAddress 0x02 (portIndex p) 0x04
  | .creditsHeld p => controlAddress 0x02 (portIndex p) 0x08
  | .slotsInUse p => controlAddress 0x02 (portIndex p) 0x0C
  | .tStall p => controlAddress 0x02 (portIndex p) 0x10
  | .admitted p => controlAddress 0x02 (portIndex p) 0x14
  | .refused p => controlAddress 0x02 (portIndex p) 0x18
  | .stray p => controlAddress 0x02 (portIndex p) 0x1C
  | .discard p => controlAddress 0x02 (portIndex p) 0x20
  | .windowState t w => controlAddress (tableClass t) w.val 0x00
  | .attributes t w => controlAddress (tableClass t) w.val 0x04
  | .base t w => controlAddress (tableClass t) w.val 0x08
  | .limit t w => controlAddress (tableClass t) w.val 0x10
  | .translatedBase t w => controlAddress (tableClass t) w.val 0x18
  | .target t w => controlAddress (tableClass t) w.val 0x20
  | .inFlight t w => controlAddress (tableClass t) w.val 0x24
  | .hitCount t w => controlAddress (tableClass t) w.val 0x28
  | .faultRecord t w => controlAddress (tableClass t) w.val 0x2C
  | .faultAddress t w => controlAddress (tableClass t) w.val 0x30
  | .command t w => controlAddress (tableClass t) w.val 0x38
  | .reserve .down => controlAddress 0x20 0 0x00
  | .reserve .up => controlAddress 0x20 0 0x04
  | .tcto .down => controlAddress 0x20 0 0x08
  | .tcto .up => controlAddress 0x20 0 0x0C
  | .inUse .down => controlAddress 0x20 0 0x10
  | .inUse .up => controlAddress 0x20 0 0x14
  | .entryState e => controlAddress 0x21 e.val 0x00
  | .entryDirection e => controlAddress 0x21 e.val 0x04
  | .entryKind e => controlAddress 0x21 e.val 0x08
  | .entryNode e => controlAddress 0x21 e.val 0x0C
  | .entryWindow e => controlAddress 0x21 e.val 0x10
  | .lockHolder k => controlAddress 0x30 k.val 0x08
  | .generation k => controlAddress 0x30 k.val 0x0C
  | .waiterCount k => controlAddress 0x30 k.val 0x10
  | .tLease k => controlAddress 0x30 k.val 0x14
  | .tWait k => controlAddress 0x30 k.val 0x18
  | .breakField k => controlAddress 0x30 k.val 0x1C
  | .noticePort => controlAddress 0x40 0 0x00
  | .noticeNode => controlAddress 0x40 0 0x04
  | .noticeClass n => controlAddress 0x40 0 (4 + 4 * noticeCode n)
  | .nextSequence => controlAddress 0x40 0 0x34
  | .queueDepth => controlAddress 0x40 0 0x38
  | .droppedSince => controlAddress 0x40 0 0x3C
  | .droppedTotal => controlAddress 0x40 0 0x40
  | .manager i => controlAddress 0x50 i.val 0x00
  | .divider => controlAddress 0x60 0 0x00
  | .reset => controlAddress 0x70 0 0x00

/-- The address of a lock object (Table 11-10). -/
def LockObject.address : LockObject → Addr
  | .acquire k => controlAddress 0x30 k.val 0x00
  | .release k => controlAddress 0x30 k.val 0x04

/-- The fields of a window object by offset; the flag is false inside an 8-byte field, 4 bytes after its first
offset (R174). -/
def windowField (t : Dir) (w : Fin 16) (offset : Nat) : Option (Field × Bool) :=
  match offset with
  | 0x00 => some (.windowState t w, true)
  | 0x04 => some (.attributes t w, true)
  | 0x08 => some (.base t w, true)
  | 0x0C => some (.base t w, false)
  | 0x10 => some (.limit t w, true)
  | 0x14 => some (.limit t w, false)
  | 0x18 => some (.translatedBase t w, true)
  | 0x1C => some (.translatedBase t w, false)
  | 0x20 => some (.target t w, true)
  | 0x24 => some (.inFlight t w, true)
  | 0x28 => some (.hitCount t w, true)
  | 0x2C => some (.faultRecord t w, true)
  | 0x30 => some (.faultAddress t w, true)
  | 0x34 => some (.faultAddress t w, false)
  | 0x38 => some (.command t w, true)
  | _ => none

/-- The fields of a PORT object by offset. -/
def portField (p : Port) (offset : Nat) : Option (Field × Bool) :=
  match offset with
  | 0x00 => some (.linkState p, true)
  | 0x04 => some (.identity p, true)
  | 0x08 => some (.creditsHeld p, true)
  | 0x0C => some (.slotsInUse p, true)
  | 0x10 => some (.tStall p, true)
  | 0x14 => some (.admitted p, true)
  | 0x18 => some (.refused p, true)
  | 0x1C => some (.stray p, true)
  | 0x20 => some (.discard p, true)
  | _ => none

/-- The fields of the IDENT object by offset. -/
def identField (offset : Nat) : Option (Field × Bool) :=
  match offset with
  | 0x00 => some (.vendorCode, true)
  | 0x04 => some (.partCode, true)
  | 0x08 => some (.revision, true)
  | 0x0C => some (.msCount, true)
  | _ => none

/-- The fields of the REQUEST TABLE settings object by offset. -/
def settingsField (offset : Nat) : Option (Field × Bool) :=
  match offset with
  | 0x00 => some (.reserve .down, true)
  | 0x04 => some (.reserve .up, true)
  | 0x08 => some (.tcto .down, true)
  | 0x0C => some (.tcto .up, true)
  | 0x10 => some (.inUse .down, true)
  | 0x14 => some (.inUse .up, true)
  | _ => none

/-- The fields of a REQUEST TABLE entries object by offset. -/
def entryField (e : Fin 64) (offset : Nat) : Option (Field × Bool) :=
  match offset with
  | 0x00 => some (.entryState e, true)
  | 0x04 => some (.entryDirection e, true)
  | 0x08 => some (.entryKind e, true)
  | 0x0C => some (.entryNode e, true)
  | 0x10 => some (.entryWindow e, true)
  | _ => none

/-- The fields of a LOCK object by offset; ACQUIRE (0x00) and RELEASE (0x04) are the lock unit's (R185). -/
def lockField (k : Fin 8) (offset : Nat) : Option (Field × Bool) :=
  match offset with
  | 0x08 => some (.lockHolder k, true)
  | 0x0C => some (.generation k, true)
  | 0x10 => some (.waiterCount k, true)
  | 0x14 => some (.tLease k, true)
  | 0x18 => some (.tWait k, true)
  | 0x1C => some (.breakField k, true)
  | _ => none

/-- The fields of the NOTICE object by offset; the class of kind code k stands at 4 + 4k (Table 11-10). -/
def noticeField (offset : Nat) : Option (Field × Bool) :=
  match offset with
  | 0x00 => some (.noticePort, true)
  | 0x04 => some (.noticeNode, true)
  | 0x34 => some (.nextSequence, true)
  | 0x38 => some (.queueDepth, true)
  | 0x3C => some (.droppedSince, true)
  | 0x40 => some (.droppedTotal, true)
  | o => if o % 4 = 0 then (noticeOfCode (o / 4 - 1)).map (fun n => (.noticeClass n, true)) else none

/-- The object that a class and an index select, as its fields by offset (Table 9-1). -/
def objectField (cls index offset : Nat) : Option (Field × Bool) :=
  match cls with
  | 0x01 => if index = 0 then identField offset else none
  | 0x02 => if index = 0 then portField .u offset else if index = 1 then portField .d offset else none
  | 0x10 => if h : index < 16 then windowField .down ⟨index, h⟩ offset else none
  | 0x11 => if h : index < 16 then windowField .up ⟨index, h⟩ offset else none
  | 0x20 => if index = 0 then settingsField offset else none
  | 0x21 => if h : index < 64 then entryField ⟨index, h⟩ offset else none
  | 0x30 => if h : index < 8 then lockField ⟨index, h⟩ offset else none
  | 0x40 => if index = 0 then noticeField offset else none
  | 0x50 => if h : index < 4 then (if offset = 0 then some (.manager ⟨index, h⟩, true) else none) else none
  | 0x60 => if index = 0 ∧ offset = 0 then some (.divider, true) else none
  | 0x70 => if index = 0 ∧ offset = 0 then some (.reset, true) else none
  | _ => none

/-- The class part of a CONTROL address (Table 11-5). -/
def classPart (a : Addr) : Nat := bitsOf a.toNat 23 16

/-- The index part of a CONTROL address (Table 11-5). -/
def indexPart (a : Addr) : Nat := bitsOf a.toNat 15 8

/-- The field offset of a CONTROL address (Table 11-5). -/
def offsetPart (a : Addr) : Nat := bitsOf a.toNat 7 0

/-- The field that an address selects (R174): nothing where a bit of 39..24 is set, and the flag as `windowField`
gives it. -/
def selectField (a : Addr) : Option (Field × Bool) :=
  if bitsOf a.toNat 39 24 ≠ 0 then none else objectField (classPart a) (indexPart a) (offsetPart a)

/-- The lock object that an address selects (R54, R174). -/
def selectLock (a : Addr) : Option LockObject :=
  if bitsOf a.toNat 39 24 = 0 ∧ classPart a = 0x30 then
    if h : indexPart a < 8 then
      match offsetPart a with
      | 0x00 => some (.acquire ⟨indexPart a, h⟩)
      | 0x04 => some (.release ⟨indexPart a, h⟩)
      | _ => none
    else none
  else none

/-- A field's width in bytes (Tables 9-4 to 9-6). -/
def Field.width : Field → Nat
  | .base _ _ | .limit _ _ | .translatedBase _ _ | .faultAddress _ _ => 8
  | _ => 4

/-- Is the field open to every requester (Table 9-1)? -/
def Field.open? : Field → Bool
  | .vendorCode | .partCode | .revision | .msCount => true
  | _ => false

/-- Can the field be written (R175, Tables 9-4 to 9-6)? -/
def Field.writable : Field → Bool
  | .identity _ | .tStall _ | .attributes _ _ | .base _ _ | .limit _ _ | .translatedBase _ _ | .target _ _
  | .hitCount _ _ | .command _ _ | .reserve _ | .tcto _ | .tLease _ | .tWait _ | .breakField _ | .noticePort
  | .noticeNode | .noticeClass _ | .manager _ | .divider | .reset => true
  | _ => false

/-! ## Reads -/

/-- A field of an entry's view; FREE reads 0 (R100). -/
def entryView (s : State) (e : Fin 64) (f : Entry → Nat) : Nat :=
  match s.entry e with
  | none => 0
  | some x => f x

/-- The value of a field (R175, with each owner's rule). -/
def readField (f : Field) (s : State) : Nat :=
  match f with
  | .vendorCode => Config.vendorCode
  | .partCode => Config.partCode
  | .revision => Config.revision
  | .msCount => s.timebase.msCount.toNat
  | .linkState p => (s.port p).link.code
  | .identity p => (s.port p).identity.toNat
  | .creditsHeld p => (s.port p).credits
  | .slotsInUse p => (s.port p).ingress.length
  | .tStall p => (s.port p).tStall.code
  | .admitted p => (s.port p).admitted.toNat
  | .refused p => (s.port p).refused.toNat
  | .stray p => (s.port p).stray.toNat
  | .discard p => (s.port p).discard.toNat
  | .windowState t w => (s.window t w).state.code
  | .attributes t w => (s.window t w).attributesCode
  | .base t w => (s.window t w).base.toNat
  | .limit t w => (s.window t w).limit.toNat
  | .translatedBase t w => (s.window t w).translatedBase.toNat
  | .target t w => (s.window t w).target.toNat
  | .inFlight t w => (s.window t w).inFlight
  | .hitCount t w => (s.window t w).hits.toNat
  | .faultRecord t w => faultCode (s.window t w).fault
  | .faultAddress t w => ((s.window t w).fault.map (fun r => r.address.toNat)).getD 0
  | .command _ _ => 0
  | .reserve x => s.reserve x
  | .tcto x => (s.tcto x).code
  | .inUse x => s.inUse x
  | .entryState e => entryView s e (fun x => x.state.code)
  | .entryDirection e => entryView s e (fun x => dirCode x.dir)
  | .entryKind e => entryView s e (fun x => x.kind.code)
  | .entryNode e => entryView s e (fun x => x.node.toNat)
  | .entryWindow e => entryView s e (fun x => windowCode x.dir x.window)
  | .lockHolder k => holderCode (s.lock k).holder (s.lock k).outbox.isSome
  | .generation k => (s.lock k).generation.toNat
  | .waiterCount k => (s.lock k).waiters.length
  | .tLease k => (s.lock k).tLease.toNat
  | .tWait k => (s.lock k).tWait.toNat
  | .breakField _ => 0
  | .noticePort => targetPortCode s.notices.targetPort
  | .noticeNode => s.notices.targetNode.toNat
  | .noticeClass n => (s.noticeClass n).code
  | .nextSequence => s.notices.nextSequence.toNat
  | .queueDepth => s.notices.queue.length
  | .droppedSince => s.notices.droppedSince
  | .droppedTotal => s.notices.droppedTotal
  | .manager i => s.managers[i].code
  | .divider => s.timebase.divider
  | .reset => 0

/-! ## Writes judged by the owners -/

/-- Does an entry that is not FREE use port `p` (R8 check 2)? -/
def State.portUsed (s : State) (p : Port) : Bool :=
  s.entries.toList.any (fun o => match o with
    | some x => decide (originPort x.dir = p) || decide (forwardPort x.dir = p)
    | none => false)

/-- Is `n` the target of a window in force that forwards at port `p` (R8 check 3)? -/
def State.targetInForce (s : State) (p : Port) (n : Node) : Bool :=
  let t := otherDir (dirOf p)
  allWindows.any (fun w => (s.window t w).inForce && decide ((s.window t w).target = n))

/-- A write of port `p`'s node identity (R8). -/
def writeIdentity (p : Port) (v : Nat) (s : State) : Status × State :=
  match nodeOf v with
  | none => (.badValue, s)
  | some n =>
    if s.portUsed p then (.wrongState, s)
    else if s.targetInForce p n then (.badValue, s)
    else (.ok, s.setPort p { s.port p with identity := n })

/-- A write of port `p`'s tSTALL (R125). -/
def writeTStall (p : Port) (v : Nat) (s : State) : Status × State :=
  match TStall.ofCode v with
  | none => (.badValue, s)
  | some t =>
    let x := s.port p
    (.ok, s.setPort p { x with tStall := t, stallTimer := if x.waitsForCredit then t.ticks else none })

/-- A write of reserve(`y`) (R74). -/
def writeReserve (y : Dir) (v : Nat) (s : State) : Status × State :=
  let x := otherDir y
  if 32 < v ∨ 64 < v + s.reserve x ∨ 64 < s.inUse x + max v (s.inUse y) then (.badValue, s)
  else (.ok, s.setReserve y v)

/-- A write of tCTO(`x`) (R75). -/
def writeTcto (x : Dir) (v : Nat) (s : State) : Status × State :=
  match TCto.ofCode v with
  | none => (.badValue, s)
  | some t => (.ok, s.setTcto x t)

/-- A lock setting in range (R137). -/
def msOf (v : Nat) : Option (BitVec 16) := if v ≤ 65535 then some (BitVec.ofNat 16 v) else none

/-- A write of lock `k`'s tLEASE (R137). -/
def writeTLease (k : Fin 8) (v : Nat) (s : State) : Status × State :=
  match msOf v with
  | none => (.badValue, s)
  | some t => (.ok, s.setLock k { s.lock k with tLease := t })

/-- A write of lock `k`'s tWAIT (R137). -/
def writeTWait (k : Fin 8) (v : Nat) (s : State) : Status × State :=
  match msOf v with
  | none => (.badValue, s)
  | some t => (.ok, s.setLock k { s.lock k with tWait := t })

/-- A write of lock `k`'s BREAK field (R147). -/
def writeBreak (k : Fin 8) (v : Nat) (s : State) : Status × State :=
  if v = 1 then (.ok, breakHold k s) else (.badValue, s)

/-- A write of the class of notice kind `n` (R162). -/
def writeClass (n : NoticeKind) (v : Nat) (s : State) : Status × State :=
  match NoticeClass.ofCode v with
  | none => (.badValue, s)
  | some c => (.ok, { s with notices := { s.notices with classes := s.notices.classes.set (noticeIndex n) c } })

/-- The notice queue drained into the dropped counts, one loss for each record (R163, R170). -/
def NoticeUnit.drained (u : NoticeUnit) : NoticeUnit :=
  { u.dropped u.queue.length u.queue.length with queue := [] }

/-- The notice unit with a new target port (R163): a write of the port it has changes nothing, NONE drains the queue. -/
def NoticeUnit.retarget (u : NoticeUnit) (q : Option Port) : NoticeUnit :=
  if q = u.targetPort then u
  else
    match q with
    | none => { u.drained with targetPort := none }
    | some p => { u with targetPort := some p }

/-- A write of the notice target port (R163). -/
def writeTargetPort (v : Nat) (s : State) : Status × State :=
  match targetPortOfCode v with
  | none => (.badValue, s)
  | some q => (.ok, { s with notices := s.notices.retarget q })

/-- A write of the notice target node (R163). -/
def writeTargetNode (v : Nat) (s : State) : Status × State :=
  match nodeOf v with
  | none => (.badValue, s)
  | some n => (.ok, { s with notices := { s.notices with targetNode := n } })

/-- A write of MANAGERS entry `i` (R178). -/
def writeManager (i : Fin 4) (v : Nat) (s : State) : Status × State :=
  match ManagerEntry.ofCode v with
  | none => (.badValue, s)
  | some m => (.ok, { s with managers := s.managers.set i m })

/-- A write of the timebase divider: the count of REFCLK periods starts again (R187). -/
def writeDivider (v : Nat) (s : State) : Status × State :=
  if 25 ≤ v ∧ v ≤ 200 then (.ok, { s with timebase := { s.timebase with divider := v, refclk := 0 } })
  else (.badValue, s)

/-- A port at a soft reset (R18, R69, R113, R134). -/
def PortState.softReset (x : PortState) : PortState :=
  { x with
    ingress := []
    headWaits := false
    creditsOwed := min 16 (x.creditsOwed + x.ingress.length)
    completions := []
    egress := []
    stallTimer := none }

/-- The soft reset (R191): every block at its soft-reset values at one event; queued notices are drained (R170) and the
notices in the egress queues are counted as flushed (R134, R167). -/
def softReset (s : State) : State :=
  { s with
    portU := s.portU.softReset
    portD := s.portD.softReset
    down := mapVector Window.softReset s.down
    up := mapVector Window.softReset s.up
    entries := Vector.replicate 64 none
    doneOrder := []
    locks := mapVector Lock.softReset s.locks
    notices := (countFlushed (noticesOf s.portU.egress ++ noticesOf s.portD.egress) s).notices.drained }

/-- A write of the RESET field (R190). -/
def writeReset (v : Nat) (s : State) : Status × State :=
  if v = 1 then (.ok, softReset s) else (.badValue, s)

/-- The owner of a writable field judges a written value (R179 step 5); any other field is never written. -/
def writeField (f : Field) (v : Nat) (s : State) : Status × State :=
  match f with
  | .identity p => writeIdentity p v s
  | .tStall p => writeTStall p v s
  | .attributes t w => storeWindow t w ((s.window t w).withAttributes v) s
  | .base t w => storeWindow t w ((addrOf v).map (fun a => { s.window t w with base := a })) s
  | .limit t w => storeWindow t w ((addrOf v).map (fun a => { s.window t w with limit := a })) s
  | .translatedBase t w => storeWindow t w ((addrOf v).map (fun a => { s.window t w with translatedBase := a })) s
  | .target t w => storeWindow t w ((nodeOf v).map (fun n => { s.window t w with target := n })) s
  | .hitCount t w => (.ok, s.setWindow t w (s.window t w).clearHits)
  | .command t w => windowCommand t w v s
  | .reserve y => writeReserve y v s
  | .tcto x => writeTcto x v s
  | .tLease k => writeTLease k v s
  | .tWait k => writeTWait k v s
  | .breakField k => writeBreak k v s
  | .noticePort => writeTargetPort v s
  | .noticeNode => writeTargetNode v s
  | .noticeClass n => writeClass n v s
  | .manager i => writeManager i v s
  | .divider => writeDivider v s
  | .reset => writeReset v s
  | _ => (.readOnly, s)

/-! ## Access and judgement -/

/-- Is the pair (`node`, `port`) a manager (R177)? -/
def State.manager (s : State) (node : Node) (port : Port) : Bool :=
  s.managers.toList.all (fun m => !m.valid)
    || s.managers.toList.any (fun m => m.valid && decide (m.node = node) && decide (m.port = port))

/-- The raise of a denied request (R177). -/
def deniedRaise (p : Port) (r : Request) : Raise where
  kind := .managementDenied
  details := { port := some p, node := some r.src, address := some r.address }

/-- What the management agent makes of a request: the status and data of its completion, the state, and the raises given. -/
structure Reply where
  status : Status
  data : List Byte
  state : State
  raises : List Raise
  deriving DecidableEq, Repr

/-- What a write of value `v` to field `f` raises: LOCK_EXPIRED by a BREAK (R147), nothing by any other. -/
def fieldRaises (f : Field) (v : Nat) (s : State) : List Raise :=
  match f with
  | .breakField k => if v = 1 then breakRaises k s else []
  | _ => []

/-- The management agent judges and carries out a request (R179). -/
def manage (p : Port) (r : Request) (s : State) : Reply :=
  match selectField r.address with
  | none => { status := .badObject, data := [], state := s, raises := [] }
  | some (f, whole) =>
    if !f.open? && !s.manager r.src p then
      { status := .denied, data := [], state := s, raises := [deniedRaise p r] }
    else if !whole || decide (r.length.toNat ≠ f.width) then
      { status := .badLength, data := [], state := s, raises := [] }
    else
      match r.kind with
      | .rd => { status := .ok, data := bytesBE f.width (readField f s), state := s, raises := [] }
      | _ =>
        if f.writable then
          let a := writeField f (numBE r.data) s
          { status := a.1, data := [], state := a.2, raises := fieldRaises f (numBE r.data) s }
        else { status := .readOnly, data := [], state := s, raises := [] }

/-- The lock unit judges the form of a request (R139) and carries out ACQUIRE and RELEASE. -/
def lockRequest (p : Port) (o : LockObject) (r : Request) (s : State) : State :=
  match o, r.kind with
  | .acquire k, .rd =>
    if r.length.toNat = 4 then acquire k r.src p r.tag s else place p (answerOf r.src r.tag .badLength []) s
  | .acquire _, _ => place p (answerOf r.src r.tag .readOnly []) s
  | .release _, .rd => place p (answerOf r.src r.tag .badObject []) s
  | .release k, _ =>
    if r.length.toNat = 4 then release k r.src p r.tag (BitVec.ofNat 32 (numBE r.data)) s
    else place p (answerOf r.src r.tag .badLength []) s

/-- A hand-off (R54): to the lock unit where the address selects ACQUIRE or RELEASE, else to the management agent, whose
one completion is placed in the head's slot (R173). Its raises are handed out. -/
def handOff (p : Port) (r : Request) (s : State) : State × List Raise :=
  match selectLock r.address with
  | some o => (lockRequest p o r s, [])
  | none =>
    let a := manage p r s
    (place p (answerOf r.src r.tag a.status a.data) a.state, a.raises)

end Sys2Proof.Machine
end

