-- ==== Sys2Proof/Machine/Admission.lean ====
section
/-! DEFINITION. Admission (03) and the completion queues' arbitration (05 5.2): the nine checks, the take, forwarding, the slots given out by rank, and the waiting heads judged again. -/

namespace Sys2Proof.Machine

/-! ## Claims on completion slots (R103, R104) -/

/-- A claim on a slot of a completion queue, other than an admission head's. -/
inductive Claim where
  | outbox (k : Fin 8)
  | expired (k : Fin 8)
  | done (e : Fin 64)
  deriving DecidableEq, Repr

/-- The claim of lock `k` on port `p`'s queue: the outbox first, then its expiry answers (R104). -/
def lockClaim (p : Port) (s : State) (k : Fin 8) : Option Claim :=
  if (s.lock k).outbox.any (fun h => decide (h.port = p)) then some (.outbox k)
  else if (s.lock k).expired.any (fun h => decide (h.port = p)) then some (.expired k)
  else none

/-- Does DONE entry `e` claim a slot of port `p` (R103)? -/
def doneClaims (p : Port) (s : State) (e : Fin 64) : Bool :=
  match s.entry e with
  | some x => decide (x.state = .done) && decide (originPort x.dir = p)
  | none => false

/-- The highest-ranked waiting claim for port `p`: locks by number, then DONE entries by done order (R104). -/
def topClaim (p : Port) (s : State) : Option Claim :=
  match allLocks.findSome? (lockClaim p s) with
  | some c => some c
  | none => (s.doneOrder.find? (doneClaims p s)).map .done

/-- A slot of port `p`'s completion queue is free, and the port is UP or STALLED (R155). -/
def slotFree (p : Port) (s : State) : Bool :=
  decide ((s.port p).link ≠ .down) && decide ((s.port p).completions.length < 16)

/-- The claim that a free slot of port `p` goes to (R104). -/
def nextClaim (p : Port) (s : State) : Option Claim := if slotFree p s then topClaim p s else none

/-- A claim for port `p` given a slot: its completion placed, and its owner acts (R104). -/
def placeClaim (p : Port) (c : Claim) (s : State) : State :=
  match c with
  | .outbox k => placeOutbox k s
  | .expired k => placeExpired k p s
  | .done e => deliverDone e s

/-- Free slots of both ports given out one at a time until the slots or the claims run out (R104). `fuel` bounds the
placings: there are 32 slots. -/
def giveOut : Nat → State → State
  | 0, s => s
  | fuel + 1, s =>
    match nextClaim .u s with
    | some c => giveOut fuel (placeClaim .u c s)
    | none =>
      match nextClaim .d s with
      | some c => giveOut fuel (placeClaim .d c s)
      | none => s

/-! ## The nine checks (3.2) -/

/-- What a judgement yields (R49). -/
inductive Disposal where
  /-- a refusal, with the matched window of the refusals at checks 5 to 9 -/
  | refuse (st : Status) (w : Option (Fin 16))
  | handOff
  | forward (w : Fin 16)
  deriving DecidableEq, Repr

/-- Check 1: is the request malformed (R52, R194)? -/
def malformed (identity : Node) (r : Request) : Bool :=
  decide (r.length.toNat = 0) || decide (256 < r.length.toNat)
    || (match r.kind with
      | .rd => decide (r.data ≠ [])
      | _ => decide (r.data.length ≠ r.length.toNat))
    || (decide (Space.ofCode r.space = none) && decide (r.space ≠ controlSpace))
    || (decide (r.kind = .pw) && decide (r.space = controlSpace) && decide (r.dst ≠ identity))

/-- Check 8: does the pair pass the window's lock binding (R56)? -/
def bindingPasses (s : State) (w : Window) (node : Node) (p : Port) : Bool :=
  match w.lockBinding with
  | none => true
  | some k =>
    if h : k.toNat < 8 then
      decide ((s.lock ⟨k.toNat, h⟩).holder = some (node, p)) && (s.lock ⟨k.toNat, h⟩).outbox.isNone
    else false

/-- Checks 5 to 9 at the matched window `w` (R27, R55, R56, R57): the first that fails. -/
def windowRefusal (p : Port) (r : Request) (w : Window) (s : State) : Option Status :=
  if w.limit.toNat < r.address.toNat + r.length.toNat - 1 then some .boundary
  else if w.state = .draining then some .windowClosed
  else if w.state = .faulted then some .windowFault
  else if r.kind = .rd ∧ w.readAllowed = false then some .access
  else if r.kind ≠ .rd ∧ w.writeAllowed = false then some .access
  else if bindingPasses s w r.src p = false then some .locked
  else
    match (s.port (forwardPort (dirOf p))).link with
    | .down => some .portDown
    | .stalled => some .portStalled
    | .up => none

/-- The judgement of a request at the head of port `p`'s buffer (R51, Table 3-1). -/
def disposal (p : Port) (r : Request) (s : State) : Disposal :=
  if malformed (s.port p).identity r then .refuse .badRequest none
  else if r.dst ≠ (s.port p).identity then .refuse .misrouted none
  else
    match Space.ofCode r.space with
    | none => if r.kind = .pw then .refuse .badRequest none else .handOff
    | some space =>
      match s.lookup (dirOf p) space r.address with
      | none => .refuse .unmapped none
      | some w =>
        match windowRefusal p r (s.window (dirOf p) w) s with
        | some st => .refuse st (some w)
        | none => .forward w

/-! ## Resources (R60, Table 3-4) -/

/-- Is a slot given to the admission head of `p`: one is free and no higher-ranked claim waits (R58, R104)? -/
def slotForHead (p : Port) (s : State) : Bool := slotFree p s && (topClaim p s).isNone

/-- The segments of a request through window `w`, as offsets and lengths (R61). -/
def segmentsOf (w : Window) (r : Request) : List (Nat × Nat) :=
  cutSegments w.granule (w.translate r.address).toNat r.length.toNat

/-- Does the request go through a PASS window as posted segments (R66)? -/
def passes (w : Window) (r : Request) : Bool := decide (r.kind = .pw) && decide (w.posting = .pass)

/-- Are the resources of a disposal all at hand (Table 3-4)? -/
def atHand (p : Port) (r : Request) (d : Disposal) (s : State) : Bool :=
  match d with
  | .refuse _ _ => decide (r.kind = .pw) || slotForHead p s
  | .handOff => slotForHead p s
  | .forward w =>
    let win := s.window (dirOf p) w
    decide ((s.port (forwardPort (dirOf p))).egress.length + (segmentsOf win r).length ≤ 16)
      && (passes win r || (s.withinReservation (dirOf p) && s.firstFree.isSome))

/-! ## The take (R50) and the disposals -/

/-- The head removed, its credit owed, and one of the two counters counted (R50). -/
def take (p : Port) (counted : Bool) (s : State) : State :=
  let x := s.port p
  s.setPort p { x with
    ingress := x.ingress.tail
    headWaits := false
    creditsOwed := min 16 (x.creditsOwed + 1)
    admitted := if counted then x.admitted + 1 else x.admitted
    refused := if counted then x.refused else x.refused + 1 }

/-- The raise of a refused posted write (R59). -/
def refusedRaise (p : Port) (r : Request) (st : Status) (w : Option (Fin 16)) : Raise where
  kind := .refusedPostedWrite
  details :=
    { port := some p, node := some r.src, address := some r.address, status := some st.code,
      window := w.map (fun n => (dirOf p, n)) }

/-- A refusal (R58, R59). Its raise is handed out. -/
def refuse (p : Port) (r : Request) (st : Status) (w : Option (Fin 16)) (s : State) : State × List Raise :=
  match r.kind with
  | .pw => (s, [refusedRaise p r st w])
  | _ => (place p (answerOf r.src r.tag st []) s, [])

/-- The kind of entry a forwarded request becomes (Table 3-3). -/
def entryKindOf : ReqKind → EntryKind
  | .rd => .read
  | .cw => .confirmed
  | .pw => .absorbed

/-- The packet of one segment (R3, R77). -/
def segmentPacket (kind : ReqKind) (w : Window) (r : Request) (tag : Tag) (c : Nat × Nat) : SegmentPacket where
  kind := kind
  target := w.target
  tag := tag
  space := w.space
  address := w.translate r.address + BitVec.ofNat 40 c.1
  length := c.2
  data := shareOf r.data c.1 c.2

/-- The packets of an entry's segments, in segment order (R63, R64, R65). -/
def entryPackets (e : Fin 64) (w : Window) (r : Request) : List EgressPacket :=
  (segmentsOf w r).mapIdx (fun k c =>
    .segment e k (segmentPacket (if r.kind = .rd then .rd else .cw) w r (bridgeTag e k) c))

/-- The packets of a posted write through PASS window `n` of table `t` (R66). -/
def passPackets (t : Dir) (n : Fin 16) (w : Window) (r : Request) : List EgressPacket :=
  (segmentsOf w r).map (fun c => .pass r.src t n (segmentPacket .pw w r 0 c))

/-- A forward through window `n` (R64 to R66). -/
def forward (p : Port) (r : Request) (n : Fin 16) (s : State) : State :=
  let t := dirOf p
  let w := s.window t n
  if passes w r then
    enqueue (forwardPort t) (passPackets t n w r) (s.setWindow t n { w with hits := w.hits + 1 })
  else
    match s.firstFree with
    | none => s
    | some e =>
      enqueue (forwardPort t) (entryPackets e w r)
        ((s.setWindow t n w.charge).setEntry e
          (some (newEntry p (entryKindOf r.kind) r n w (w.translate r.address))))

/-- A disposal carried out at the take event (R50). Its raises are handed out. -/
def carryOut (p : Port) (r : Request) (d : Disposal) (s : State) : State × List Raise :=
  match d with
  | .refuse st w => refuse p r st w (take p false s)
  | .handOff => handOff p r (take p true s)
  | .forward w => (forward p r w (take p true s), [])

/-- The head of port `p` is judged: can it be taken, its resources all at hand (R49)? -/
def takeable (p : Port) (s : State) : Bool :=
  match (s.port p).ingress with
  | [] => false
  | r :: _ => atHand p r (disposal p r s) s

/-- The head of port `p` taken, by the disposal it is judged to have (R49, R50). -/
def takeHead (p : Port) (s : State) : State × List Raise :=
  match (s.port p).ingress with
  | [] => (s, [])
  | r :: _ => carryOut p r (disposal p r s) s

/-! ## The end of an event (R49, R104, R161) -/

/-- A waiting head judged again can be taken (R49). -/
def waitingTake (p : Port) (s : State) : Bool := (s.port p).headWaits && takeable p s

/-- The waiting head that is taken next; where both can be, a free value picks (R62). -/
def nextHead (s : State) : Option Port :=
  match waitingTake .u s, waitingTake .d s with
  | false, false => none
  | true, false => some .u
  | false, true => some .d
  | true, true => if Config.freeOrder s.freeNext 0 % 2 = 0 then some .u else some .d

/-- The waiting head of port `p` taken while the event's raises `es` are not judged yet: as many of them as a free value picks are judged
before the take, its own raises join the rest in a free order (R161), and the slots that have come free are given out. The raises
left, and the state. -/
def takeWaiting (p : Port) (es : List Raise) (s : State) : List Raise × State :=
  let parts := freeSplit (s.freeNext + 1) es
  let a := takeHead p (raiseAll parts.1 s)
  (freeMerge (s.freeNext + 2) parts.2 a.2, giveOut 32 (a.1.drawn 3))

/-- The waiting heads judged again, at most `fuel` takes, at the end of an event that has given the raises `es`. -/
def judgeWaiting : Nat → List Raise → State → State
  | 0, es, s => raiseAll es s
  | fuel + 1, es, s =>
    match nextHead s with
    | none => raiseAll es s
    | some p => judgeWaiting fuel (takeWaiting p es s).1 (takeWaiting p es s).2

/-- What comes about at the end of an event that has given the raises `es`: free slots are given out by rank (R104), waiting heads are
judged again (R49), and the raises are judged, before, between and after the heads as a free value picks (R161). There are at most
two waiting heads, and a head that a take exposes is not waiting (R48). An egress slot that the event has freed goes to a waiting head
before a queued notice, which NOTICE_PLACEMENT places at an event of its own (R165): R63 and R120 leave the order of the two claims
open, so this one is the model's (DESIGN CHOICE; notes/assumptions/24.md). -/
def settleWith (es : List Raise) (s : State) : State := judgeWaiting 2 es (giveOut 32 s)

/-- The end of an event that has given no raise. -/
def settle (s : State) : State := settleWith [] s

/-- An admission event of port `p` (R48, R49): its head is taken, or it waits from here on. -/
def judgeHead (p : Port) (s : State) : State :=
  match (s.port p).ingress with
  | [] => s
  | _ :: _ =>
    if takeable p s then settleWith (takeHead p s).2 (takeHead p s).1
    else settle (s.setPort p { s.port p with headWaits := true })

/-! ## Arriving requests (1.5) -/

/-- The raise of an overrun (R16). -/
def overrunRaise (p : Port) (r : Request) : Raise where
  kind := .creditOverrun
  details := { port := some p, node := some r.src }

/-- One more packet discarded at port `p` (R19). -/
def countDiscard (p : Port) (s : State) : State :=
  s.setPort p { s.port p with discard := (s.port p).discard + 1 }

/-- A request stored at the tail of port `p`'s buffer, or discarded as an overrun (R14, R16). -/
def storeRequest (p : Port) (r : Request) (s : State) : State :=
  if (s.port p).ingress.length < 16 then
    s.setPort p { s.port p with ingress := (s.port p).ingress ++ [r] }
  else raise (overrunRaise p r) (countDiscard p s)

/-- A request to the bridge itself reaches port `p` (notes/assumptions/5.md). Where it stands at the head already, or the
buffer is empty so that it becomes the head, it is judged at this event; behind another request it is stored and waits
for its turn (R48). A DOWN port delivers nothing (R1). -/
def presentRequest (p : Port) (r : Request) (s : State) : State :=
  if (s.port p).link = .down then s
  else
    match (s.port p).ingress with
    | [] => judgeHead p (storeRequest p r s)
    | h :: _ => if h = r then judgeHead p s else storeRequest p r s

/-- The management or lock request of requester `q` (Table 11-1), addressed to the identity that its port holds. -/
def requestFor (q : Requester) (kind : ReqKind) (address : Addr) (length : BitVec 16) (data : List Byte) (s : State) :
    Request where
  kind := kind
  dst := (s.port q.port).identity
  src := q.node
  tag := q.tag
  space := controlSpace
  address := address
  length := length
  data := data

/-- The CW of field `f` with value `v` from requester `q` reaches its port. -/
def presentWrite (q : Requester) (f : Field) (v : Nat) (s : State) : State :=
  presentRequest q.port
    (requestFor q .cw f.address (BitVec.ofNat 16 f.width) (bytesBE f.width v) s) s

end Sys2Proof.Machine
end

