-- ==== Sys2Proof/Machine/LinkCommands.lean ====
section
/-! DEFINITION. The meanings of the reset pins, the link events, the arrivals and the departures (01, 06, 11). -/

namespace Sys2Proof.Machine

/-- The outcome of a command. -/
abbrev Answer := Host.Outcome State Fault Refusal

/-! ## Reset pins -/

/-- POWER_UP_RESET (R20): RESET_N is asserted and every block takes its power-up value. The waiting commands and the
number of the next free value are the model's own and stay. -/
def execPowerUpReset (s : State) : Answer :=
  .next { State.reset with freeNext := s.freeNext, pending := s.pending }

/-- RESET_N_DEASSERTION (R197, R7): the straps are loaded into both identities, the timebase starts from 0. Where RESET_N
is high already there is no rise, and nothing happens (notes/assumptions/9.md). -/
def execResetNDeassertion (straps : Node) (s : State) : Answer :=
  if s.resetN then .next s
  else
    .next { s with
      resetN := true
      portU := { s.portU with identity := straps }
      portD := { s.portD with identity := straps }
      timebase := { s.timebase with refclk := 0, msProgress := 0, msCount := 0 } }

/-! ## Link events -/

/-- The raise of a link event at port `p` (R10, R11). -/
def portRaise (kind : NoticeKind) (p : Port) : Raise where
  kind := kind
  details := { port := some p }

/-- LINK_ESTABLISHMENT of port `p` (R10, R13). The link layer reports it only while the port is DOWN (R1), and does not
train while RESET_N is asserted (R20): else nothing happens (notes/assumptions/9.md). -/
def execLinkEstablishment (p : Port) (s : State) : Answer :=
  if s.resetN ∧ (s.port p).link = .down then
    .next (settleWith [portRaise .linkUp p]
      (s.setPort p { s.port p with link := .up, creditsOwed := 16, lastChoice := .completion }))
  else .next s

/-- A port's own state at its link loss (R11, R112, R132). -/
def PortState.linkLost (x : PortState) : PortState :=
  { x with
    link := .down
    ingress := []
    headWaits := false
    creditsOwed := 0
    completions := []
    egress := []
    credits := 0
    stallTimer := none }

/-- LINK_LOSS of port `p` (R11, R95, R96, R132, R153, R154), reported only while the port is UP or STALLED (R1). The raises of
the egress queue and then of the port (R132), of the window table, and of the lock unit come in a free order (R161). -/
def execLinkLoss (p : Port) (s : State) : Answer :=
  if (s.port p).link = .down then .next s
  else
    let flushed := (s.port p).egress
    let s1 := countFlushed (noticesOf flushed) (s.setPort p (s.port p).linkLost)
    let a := forwardLinkLoss s.freeNext p s1
    let s2 := locksLinkLoss p (originLinkLoss p a.1)
    let portRaises := passRaises .linkDown flushed ++ [portRaise .linkDown p]
    let merged := freeMerge (s.freeNext + 2) (freeMerge (s.freeNext + 1) portRaises a.2) (lockLinkRaises p s)
    .next (settleWith merged (s2.drawn 3))

/-! ## Arrivals (R14) -/

/-- A request arrives at port `p`. A DOWN port delivers nothing (R1), here and at the other arrivals. -/
def arriveRequest (p : Port) (r : Request) (s : State) : State :=
  if (s.port p).link = .down then s else storeRequest p r s

/-- A completion arrives at port `p`: to the request table when it is addressed to the port's identity, else stray (R14). -/
def arriveCompletion (p : Port) (c : CplPacket) (s : State) : State :=
  if (s.port p).link = .down then s
  else if c.dst = (s.port p).identity then settleWith (tableCompletion p c s).2 (tableCompletion p c s).1
  else raise (strayRaise p c none) (countStray p s)

/-- A packet that port `p` discards and counts (R5, R6). -/
def arriveDiscarded (p : Port) (s : State) : State :=
  if (s.port p).link = .down then s else countDiscard p s

/-- A port that takes a CRD of increment `n` (R123, R126, R129): the counter saturates at 32, the stall timer stops, a
STALLED port returns to UP. -/
def PortState.credited (x : PortState) (n : Nat) : PortState :=
  { x with credits := min 32 (x.credits + n), stallTimer := none, link := .up }

/-- A CRD arrives at port `p` (R123, R6). -/
def arriveCredit (p : Port) (increment : Byte) (s : State) : State :=
  if (s.port p).link = .down then s
  else if 1 ≤ increment.toNat ∧ increment.toNat ≤ 16 then
    settle (s.setPort p ((s.port p).credited increment.toNat))
  else countDiscard p s

/-- REQUEST_ARRIVAL (R14, R16). -/
def execRequestArrival (p : Port) (r : Request) (s : State) : Answer := .next (arriveRequest p r s)

/-- COMPLETION_ARRIVAL (R14, R80 to R84). -/
def execCompletionArrival (p : Port) (c : CplPacket) (s : State) : Answer := .next (arriveCompletion p c s)

/-- NOTICE_ARRIVAL (R5): discarded whatever its destination node. -/
def execNoticeArrival (p : Port) (_destination : Node) (s : State) : Answer := .next (arriveDiscarded p s)

/-- CREDIT_ARRIVAL (R123, R129, R6). -/
def execCreditArrival (p : Port) (increment : Byte) (s : State) : Answer := .next (arriveCredit p increment s)

/-- UNDEFINED_PACKET_ARRIVAL (R6, R194): the bytes are read as R194 gives; a packet of undefined kind is discarded and
counted. Bytes that spell a packet of a defined kind are not a well-formed operand; they act as that packet
(notes/assumptions/20.md). -/
def execUndefinedPacketArrival (p : Port) (packet : List Byte) (s : State) : Answer :=
  match readPacket packet with
  | .request r => .next (arriveRequest p r s)
  | .completion c => .next (arriveCompletion p c s)
  | .credit i => .next (arriveCredit p i s)
  | .notice _ => .next (arriveDiscarded p s)
  | .undefinedKind => .next (arriveDiscarded p s)

/-! ## Departures (R13) -/

/-- What the transmitter takes next. -/
inductive TxChoice where
  | credit
  | completion
  | egress
  | nothing
  deriving DecidableEq, Repr

/-- Is the egress head ready (R122)? -/
def PortState.egressReady (x : PortState) : Bool :=
  decide (x.link = .up) && decide (0 < x.credits) && !x.egress.isEmpty

/-- The transmitter's choice (R13): nothing in DOWN, a CRD first, then the one ready head, or of two ready heads the one it
did not take at its last choice between them. -/
def PortState.choice (x : PortState) : TxChoice :=
  if x.link = .down then .nothing
  else if 0 < x.creditsOwed then .credit
  else
    match x.completions.isEmpty, x.egressReady with
    | true, false => .nothing
    | false, false => .completion
    | true, true => .egress
    | false, true =>
      match x.lastChoice with
      | .completion => .egress
      | .egress => .completion

/-- The transmitter's record of its last choice between the two queues, after it takes from `q` (R13): only a take while both
heads are ready changes it. -/
def PortState.chose (x : PortState) (q : TxQueue) : TxQueue :=
  if !x.completions.isEmpty && x.egressReady then q else x.lastChoice

/-- CRD_DEPARTURE of port `p` (R17): the CRD carries the credits owed, which become 0. Where the transmitter does not choose a
CRD, none leaves (notes/assumptions/8.md), here and at the other departures. -/
def execCrdDeparture (p : Port) (s : State) : Answer :=
  if (s.port p).choice = .credit then
    .next (s.setPort p { s.port p with
      creditsOwed := 0, lane := creditBytes (s.port p).creditsOwed })
  else .next s

/-- COMPLETION_DEPARTURE of port `p` (R102): the head leaves with the port's current identity, and its freed slot is given
out (R104). -/
def execCompletionDeparture (p : Port) (s : State) : Answer :=
  let x := s.port p
  if x.choice = .completion then
    match x.completions with
    | [] => .next s
    | c :: rest =>
      .next (settle (s.setPort p { x with
        completions := rest, lastChoice := x.chose .completion, lane := c.bytes x.identity }))
  else .next s

/-- A port after its egress head has left (R122, R126): one credit spent, and the stall timer starts where the counter reaches
0 with packets left. -/
def PortState.sendHead (x : PortState) (k : EgressPacket) (rest : List EgressPacket) : PortState :=
  let y := { x with
    egress := rest, credits := x.credits - 1, lastChoice := x.chose .egress, lane := k.bytes x.identity }
  if y.waitsForCredit then { y with stallTimer := y.tStall.ticks } else y

/-- EGRESS_DEPARTURE of port `p` (R122, R79). -/
def execEgressDeparture (p : Port) (s : State) : Answer :=
  let x := s.port p
  if x.choice = .egress then
    match x.egress with
    | [] => .next s
    | k :: rest =>
      let s1 := s.setPort p (x.sendHead k rest)
      match k with
      | .segment e n _ => .next (settle (segmentSent e n s1))
      | .pass _ _ _ _ => .next (settle s1)
      | .notice _ => .next (settle s1)
  else .next s

end Sys2Proof.Machine
end

