-- ==== Sys2Proof/Machine/RequestCommands.lean ====
section
/-! DEFINITION. The meanings of the rows that are requests to the bridge itself: lock requests, window commands and management writes (02, 07, 08, 09). Each is the request reaching its port (notes/assumptions/5.md). -/

namespace Sys2Proof.Machine

/-- ACQUIRE (R140): an RD of length 4 at the ACQUIRE address of lock `k`. -/
def execAcquire (q : Requester) (k : Fin 8) (s : State) : Answer :=
  .next (presentRequest q.port (requestFor q .rd (LockObject.acquire k).address 4 [] s) s)

/-- RELEASE (R145): a CW of length 4 at the RELEASE address of lock `k`, the generation as its data (R196). -/
def execRelease (q : Requester) (k : Fin 8) (generation : Word32) (s : State) : Answer :=
  .next (presentRequest q.port
    (requestFor q .cw (LockObject.release k).address 4 (bytesBE 4 generation.toNat) s) s)

/-- BREAK (R147): a CW of the value 1. -/
def execBreakLock (q : Requester) (k : Fin 8) (s : State) : Answer := .next (presentWrite q (.breakField k) 1 s)

/-- TLEASE_WRITE (R137). -/
def execTleaseWrite (q : Requester) (k : Fin 8) (value : Word32) (s : State) : Answer :=
  .next (presentWrite q (.tLease k) value.toNat s)

/-- TWAIT_WRITE (R137). -/
def execTwaitWrite (q : Requester) (k : Fin 8) (value : Word32) (s : State) : Answer :=
  .next (presentWrite q (.tWait k) value.toNat s)

/-- ENABLE (R29, R30): a CW of the command field with code 1. -/
def execEnable (q : Requester) (t : Dir) (w : Fin 16) (s : State) : Answer := .next (presentWrite q (.command t w) 1 s)

/-- DISABLE (R29, R36): a CW of the command field with code 2. -/
def execDisable (q : Requester) (t : Dir) (w : Fin 16) (s : State) : Answer := .next (presentWrite q (.command t w) 2 s)

/-- CLEAR_FAULT (R29, R39): a CW of the command field with code 3. -/
def execClearFault (q : Requester) (t : Dir) (w : Fin 16) (s : State) : Answer :=
  .next (presentWrite q (.command t w) 3 s)

/-- WINDOW_FIELD_WRITE (R24). -/
def execWindowFieldWrite (q : Requester) (t : Dir) (w : Fin 16) (f : WindowFieldWrite) (s : State) : Answer :=
  match f with
  | .attributes v => .next (presentWrite q (.attributes t w) v.toNat s)
  | .base v => .next (presentWrite q (.base t w) v.toNat s)
  | .limit v => .next (presentWrite q (.limit t w) v.toNat s)
  | .translatedBase v => .next (presentWrite q (.translatedBase t w) v.toNat s)
  | .target v => .next (presentWrite q (.target t w) v.toNat s)

/-- HIT_COUNT_CLEAR (R44, R24). -/
def execHitCountClear (q : Requester) (t : Dir) (w : Fin 16) (value : Word32) (s : State) : Answer :=
  .next (presentWrite q (.hitCount t w) value.toNat s)

/-- NODE_IDENTITY_WRITE of port `p`'s identity (R8). -/
def execNodeIdentityWrite (q : Requester) (p : Port) (value : Word32) (s : State) : Answer :=
  .next (presentWrite q (.identity p) value.toNat s)

/-- TSTALL_WRITE of port `p`'s tSTALL (R125). -/
def execTstallWrite (q : Requester) (p : Port) (value : Word32) (s : State) : Answer :=
  .next (presentWrite q (.tStall p) value.toNat s)

/-- RESERVE_WRITE (R74). -/
def execReserveWrite (q : Requester) (x : Dir) (value : Word32) (s : State) : Answer :=
  .next (presentWrite q (.reserve x) value.toNat s)

/-- TCTO_WRITE (R75). -/
def execTctoWrite (q : Requester) (x : Dir) (value : Word32) (s : State) : Answer :=
  .next (presentWrite q (.tcto x) value.toNat s)

/-- CLASS_WRITE (R162). -/
def execClassWrite (q : Requester) (n : NoticeKind) (value : Word32) (s : State) : Answer :=
  .next (presentWrite q (.noticeClass n) value.toNat s)

/-- TARGET_PORT_WRITE (R163). -/
def execTargetPortWrite (q : Requester) (value : Word32) (s : State) : Answer :=
  .next (presentWrite q .noticePort value.toNat s)

/-- TARGET_NODE_WRITE (R163). -/
def execTargetNodeWrite (q : Requester) (value : Word32) (s : State) : Answer :=
  .next (presentWrite q .noticeNode value.toNat s)

/-- MANAGER_ENTRY_WRITE (R178). -/
def execManagerEntryWrite (q : Requester) (i : Fin 4) (value : Word32) (s : State) : Answer :=
  .next (presentWrite q (.manager i) value.toNat s)

/-- DIVIDER_WRITE (R187). -/
def execDividerWrite (q : Requester) (value : Word32) (s : State) : Answer :=
  .next (presentWrite q .divider value.toNat s)

/-- SOFT_RESET (R190 to R192): a CW of the value 1 to RESET. -/
def execSoftReset (q : Requester) (s : State) : Answer := .next (presentWrite q .reset 1 s)

/-- REGISTER_WRITE (R175): any other management CW. -/
def execRegisterWrite (q : Requester) (address : Addr) (length : BitVec 16) (data : List Byte) (s : State) : Answer :=
  .next (presentRequest q.port (requestFor q .cw address length data s) s)

end Sys2Proof.Machine
end

