-- ==== Sys2Proof/Machine/UnitCommands.lean ====
section
/-! DEFINITION. The meanings of the units' own events: admission, notice placement, the placing of claims, the timer expiries, and the tick that drives them (03, 04, 05, 06, 07, 08, 09 9.5). -/

namespace Sys2Proof.Machine

/-- ADMISSION_JUDGEMENT of port `p` (R49). -/
def execAdmissionJudgement (p : Port) (s : State) : Answer := .next (judgeHead p s)

/-- A record stamped (R166). -/
def stamp (u : NoticeUnit) (r : NoticeRecord) : StampedNotice where
  destination := u.targetNode
  sequence := u.nextSequence
  dropped := u.droppedSince
  record := r

/-- NOTICE_PLACEMENT (R165, R166): with a record queued, the target port UP and a slot free in its egress queue, the chosen
record is stamped and placed; else nothing is placed. -/
def execNoticePlacement (s : State) : Answer :=
  match s.notices.targetPort, nextRecord s.notices.queue with
  | some p, some (r, rest) =>
    if (s.port p).link = .up ∧ (s.port p).egress.length < 16 then
      .next (settle (enqueue p [.notice (stamp s.notices r)]
        { s with
          notices := { s.notices with
            queue := rest, nextSequence := s.notices.nextSequence + 1, droppedSince := 0 } }))
    else .next s
  | _, _ => .next s

/-! ## Claims given a slot (R104; notes/assumptions/7.md) -/

/-- Claim `c` given the slot of port `p` that is its due, else nothing. -/
def giveSlot (p : Port) (c : Claim) (s : State) : State :=
  if nextClaim p s = some c then settle (placeClaim p c s) else s

/-- DONE_ENTRY_DELIVERY of entry `e` (R90). -/
def execDoneEntryDelivery (e : Fin 64) (s : State) : Answer :=
  match s.entry e with
  | none => .next s
  | some x => .next (giveSlot (originPort x.dir) (.done e) s)

/-- OUTBOX_GRANT_PLACING of lock `k` (R146). -/
def execOutboxGrantPlacing (k : Fin 8) (s : State) : Answer :=
  match (s.lock k).outbox with
  | none => .next s
  | some h => .next (giveSlot h.port (.outbox k) s)

/-- EXPIRY_ANSWER_PLACING of lock `k`'s oldest answer for port `p` (R151). -/
def execExpiryAnswerPlacing (k : Fin 8) (p : Port) (s : State) : Answer := .next (giveSlot p (.expired k) s)

/-! ## Expiries (R188; notes/assumptions/2.md) -/

/-- COMPLETION_DEADLINE_EXPIRY of entry `e` (R86). -/
def execCompletionDeadlineExpiry (e : Fin 64) (s : State) : Answer := 
  .next (settleWith (expireDeadline e s).2 (expireDeadline e s).1)

/-- QUARANTINE_EXPIRY of entry `e` (R87). -/
def execQuarantineExpiry (e : Fin 64) (s : State) : Answer := .next (settle (expireQuarantine e s))

/-- A port at the expiry of its stall timer (R127). -/
def PortState.stall (x : PortState) : PortState := { x with link := .stalled, egress := [], stallTimer := none }

/-- The stall timer of port `p` expires (R127, R94, R167): STALLED, the queue flushed, the entries' results taken, the raises
of the queue and of the window table handed out in a free order (R161). Nothing where no timer runs. -/
def expireStall (p : Port) (s : State) : State × List Raise :=
  match (s.port p).stallTimer with
  | none => (s, [])
  | some _ =>
    let flushed := (s.port p).egress
    let a := stallEntries flushed (countFlushed (noticesOf flushed) (s.setPort p (s.port p).stall))
    let portRaises := passRaises .portStalled flushed ++ [portRaise .portStalled p]
    (a.1.drawn 1, freeMerge s.freeNext portRaises a.2)

/-- STALL_TIMER_EXPIRY of port `p` (R127). -/
def execStallTimerExpiry (p : Port) (s : State) : Answer := .next (settleWith (expireStall p s).2 (expireStall p s).1)

/-- LEASE_EXPIRY of lock `k` (R148). -/
def execLeaseExpiry (k : Fin 8) (s : State) : Answer := .next (settleWith (expireLease k s).2 (expireLease k s).1)

/-- WAIT_EXPIRY of the waiter (`node`, `p`) of lock `k` (R150). -/
def execWaitExpiry (k : Fin 8) (node : Node) (p : Port) (s : State) : Answer := .next (settle (expireWait k node p s))

/-- MILLISECOND_COUNT_INCREMENT (R189): 32 bits, wrapping. The timebase does not count while RESET_N is asserted (R197). -/
def execMillisecondCountIncrement (s : State) : Answer :=
  if s.resetN then
    .next { s with timebase := { s.timebase with msCount := s.timebase.msCount + 1 } }
  else .next s

/-! ## The tick (R188) -/

/-- What can fall due at a tick. -/
inductive Due where
  | deadline (e : Fin 64)
  | quarantine (e : Fin 64)
  | stall (p : Port)
  | lease (k : Fin 8)
  | wait (k : Fin 8) (node : Node) (p : Port)
  | millisecond
  deriving DecidableEq, Repr

/-- A running timer one tick later. -/
def tickTimer (t : Option Nat) : Option Nat := t.map (fun n => n - 1)

/-- A port's timer one tick later. -/
def PortState.tick (x : PortState) : PortState := { x with stallTimer := tickTimer x.stallTimer }

/-- An entry's timers one tick later. -/
def Entry.tick (x : Entry) : Entry :=
  { x with
    deadline := x.deadline.map (fun d => { d with remaining := d.remaining - 1 })
    quarantine := tickTimer x.quarantine }

/-- A lock's timers one tick later. -/
def Lock.tick (x : Lock) : Lock :=
  { x with
    lease := tickTimer x.lease
    waiters := x.waiters.map (fun w => { w with deadline := tickTimer w.deadline }) }

/-- Every running timer's remaining count lowered by 1 (R188): the tick that begins here is one of its whole ticks. -/
def State.countDown (s : State) : State :=
  { s with
    portU := s.portU.tick
    portD := s.portD.tick
    entries := mapVector (Option.map Entry.tick) s.entries
    locks := mapVector Lock.tick s.locks }

/-- Is an event due at a tick: are all whole ticks of its timer over, its count at 0 (R89, R126, R148, R188; notes/assumptions/11.md)? -/
def State.isDue (s : State) : Due → Bool
  | .deadline e => match s.entry e with
    | some x => x.deadline.any (fun d => decide (d.remaining = 0))
    | none => false
  | .quarantine e => match s.entry e with
    | some x => decide (x.quarantine = some 0)
    | none => false
  | .stall p => decide ((s.port p).stallTimer = some 0)
  | .lease k => decide ((s.lock k).lease = some 0)
  | .wait k node p =>
    (s.lock k).waiters.any (fun w => decide (w.node = node ∧ w.port = p ∧ w.deadline = some 0))
  | .millisecond => true

/-- The timers that can fall due, in one listing order. -/
def State.timers (s : State) : List Due :=
  (allEntries.map .deadline ++ allEntries.map .quarantine ++ [.stall .u, .stall .d] ++ allLocks.map .lease)
    ++ allLocks.flatMap (fun k => (s.lock k).waiters.map (fun w => .wait k w.node w.port))

/-- One due event (R188: each expiry is an event at the block that owns the timer). -/
def runDue (d : Due) (s : State) : State :=
  if s.isDue d then
    match d with
    | .deadline e => settleWith (expireDeadline e s).2 (expireDeadline e s).1
    | .quarantine e => settle (expireQuarantine e s)
    | .stall p => settleWith (expireStall p s).2 (expireStall p s).1
    | .lease k => settleWith (expireLease k s).2 (expireLease k s).1
    | .wait k node p => settle (expireWait k node p s)
    | .millisecond => { s with timebase := { s.timebase with msCount := s.timebase.msCount + 1 } }
  else s

/-- The millisecond progress one tick later, and whether this is the 1000th tick (R189). -/
def Timebase.tick (b : Timebase) : Timebase × Bool :=
  if 999 ≤ b.msProgress then ({ b with msProgress := 0 }, true)
  else ({ b with msProgress := b.msProgress + 1 }, false)

/-- One microsecond tick (R188, R189): what is due happens, in a free order where several are due, and every running timer counts the tick
that begins. A timer that starts between two ticks has its first whole tick begin at the next, so it expires at the first tick at or
after its nominal time (R89, R126, R148; notes/assumptions/11.md). -/
def tick (s : State) : State :=
  let b := s.timebase.tick
  let s1 := { s with timebase := b.1 }
  let due := s1.timers.filter s1.isDue ++ (if b.2 then [Due.millisecond] else [])
  let ordered := freeArrange s.freeNext due
  (ordered.foldl (fun s d => runDue d s) (if 1 < due.length then s1.drawn 1 else s1)).countDown

/-- One REFCLK period (R187): a tick after `divider` periods. While RESET_N is asserted the timebase does not count (R197). -/
def refclkPeriod (s : State) : State :=
  if s.resetN then
    if s.timebase.divider ≤ s.timebase.refclk + 1 then
      tick { s with timebase := { s.timebase with refclk := 0 } }
    else { s with timebase := { s.timebase with refclk := s.timebase.refclk + 1 } }
  else s

end Sys2Proof.Machine
end

