-- ==== Sys2Proof/Machine/Dispatch.lean ====
section
/-! DEFINITION. One arm per command of the table: its meaning. -/

namespace Sys2Proof.Machine

def exec (i : Instr) (s : State) : Host.Outcome State Fault Refusal :=
  match i with
  | .powerUpReset => Sys2Proof.Machine.execPowerUpReset s
  | .resetNDeassertion straps => Sys2Proof.Machine.execResetNDeassertion straps s
  | .linkEstablishment p => Sys2Proof.Machine.execLinkEstablishment p s
  | .linkLoss p => Sys2Proof.Machine.execLinkLoss p s
  | .requestArrival p r => Sys2Proof.Machine.execRequestArrival p r s
  | .completionArrival p c => Sys2Proof.Machine.execCompletionArrival p c s
  | .noticeArrival p destination => Sys2Proof.Machine.execNoticeArrival p destination s
  | .creditArrival p increment => Sys2Proof.Machine.execCreditArrival p increment s
  | .undefinedPacketArrival p packet => Sys2Proof.Machine.execUndefinedPacketArrival p packet s
  | .crdDeparture p => Sys2Proof.Machine.execCrdDeparture p s
  | .completionDeparture p => Sys2Proof.Machine.execCompletionDeparture p s
  | .egressDeparture p => Sys2Proof.Machine.execEgressDeparture p s
  | .admissionJudgement p => Sys2Proof.Machine.execAdmissionJudgement p s
  | .noticePlacement => Sys2Proof.Machine.execNoticePlacement s
  | .doneEntryDelivery e => Sys2Proof.Machine.execDoneEntryDelivery e s
  | .outboxGrantPlacing k => Sys2Proof.Machine.execOutboxGrantPlacing k s
  | .expiryAnswerPlacing k p => Sys2Proof.Machine.execExpiryAnswerPlacing k p s
  | .completionDeadlineExpiry e => Sys2Proof.Machine.execCompletionDeadlineExpiry e s
  | .quarantineExpiry e => Sys2Proof.Machine.execQuarantineExpiry e s
  | .stallTimerExpiry p => Sys2Proof.Machine.execStallTimerExpiry p s
  | .leaseExpiry k => Sys2Proof.Machine.execLeaseExpiry k s
  | .waitExpiry k node p => Sys2Proof.Machine.execWaitExpiry k node p s
  | .acquire q k => Sys2Proof.Machine.execAcquire q k s
  | .release q k generation => Sys2Proof.Machine.execRelease q k generation s
  | .breakLock q k => Sys2Proof.Machine.execBreakLock q k s
  | .tleaseWrite q k value => Sys2Proof.Machine.execTleaseWrite q k value s
  | .twaitWrite q k value => Sys2Proof.Machine.execTwaitWrite q k value s
  | .enable q t w => Sys2Proof.Machine.execEnable q t w s
  | .disable q t w => Sys2Proof.Machine.execDisable q t w s
  | .clearFault q t w => Sys2Proof.Machine.execClearFault q t w s
  | .windowFieldWrite q t w f => Sys2Proof.Machine.execWindowFieldWrite q t w f s
  | .hitCountClear q t w value => Sys2Proof.Machine.execHitCountClear q t w value s
  | .nodeIdentityWrite q p value => Sys2Proof.Machine.execNodeIdentityWrite q p value s
  | .tstallWrite q p value => Sys2Proof.Machine.execTstallWrite q p value s
  | .reserveWrite q x value => Sys2Proof.Machine.execReserveWrite q x value s
  | .tctoWrite q x value => Sys2Proof.Machine.execTctoWrite q x value s
  | .classWrite q n value => Sys2Proof.Machine.execClassWrite q n value s
  | .targetPortWrite q value => Sys2Proof.Machine.execTargetPortWrite q value s
  | .targetNodeWrite q value => Sys2Proof.Machine.execTargetNodeWrite q value s
  | .managerEntryWrite q n value => Sys2Proof.Machine.execManagerEntryWrite q n value s
  | .dividerWrite q value => Sys2Proof.Machine.execDividerWrite q value s
  | .softReset q => Sys2Proof.Machine.execSoftReset q s
  | .registerWrite q address length data => Sys2Proof.Machine.execRegisterWrite q address length data s
  | .millisecondCountIncrement => Sys2Proof.Machine.execMillisecondCountIncrement s

end Sys2Proof.Machine
end

