-- ==== Sys2Proof/Machine/Step.lean ====
section
/-! DEFINITION. One step: the command at the front of the queue, or one REFCLK period when the queue is empty. -/

namespace Sys2Proof.Machine

/-- Take the command at the front and run its meaning with the queue's rest; with no command waiting, the timebase counts
one REFCLK period (notes/assumptions/2.md). -/
def step (s : State) : Host.Outcome State Fault Refusal :=
  match s.pending with
  | c :: rest => exec c { s with pending := rest }
  | [] => .next (refclkPeriod s)

/-- The state with the command that a table word spells put at the front of the queue; unchanged where it spells none
(notes/assumptions/17.md). -/
def State.withFetchWord (s : State) (nbits w : Nat) : State :=
  match decodeTableWord nbits w with
  | some c => { s with pending := c :: s.pending }
  | none => s

end Sys2Proof.Machine
end

