-- ==== Sys2Proof/Safety.lean ====
section
/-! DEFINITION. The laws the spec states of the part's state, and when the part is at rest between events: the terms in which the statements say what a safe run is. -/

namespace Sys2Proof.Safety

open Sys2Proof.Machine

/-! ## Ports (01, 05, 06) -/

/-- The bounds of a port's buffers and counts (R15, R17, R101, R119, R122). -/
def PortBounds (x : PortState) : Prop :=
  x.ingress.length ≤ 16 ∧ x.creditsOwed ≤ 16 ∧ x.completions.length ≤ 16 ∧ x.egress.length ≤ 16 ∧ x.credits ≤ 32

/-- A DOWN port holds nothing (R11, R102, R112, R132), a STALLED port has an empty egress queue and no credit (R127, R128), and
only a port with a head has a head that waits (R48). -/
def PortLinks (x : PortState) : Prop :=
  (x.link = .down →
    x.ingress = [] ∧ x.creditsOwed = 0 ∧ x.completions = [] ∧ x.egress = [] ∧ x.credits = 0) ∧
  (x.link = .stalled → x.egress = [] ∧ x.credits = 0) ∧
  (x.headWaits = true → x.ingress ≠ [])

/-- The stall timer runs exactly while the three conditions of R126 hold and tSTALL is not OFF (R125, R126). -/
def PortTimer (x : PortState) : Prop :=
  x.stallTimer.isSome = (x.waitsForCredit && decide (x.tStall ≠ .off))

/-- The laws of both ports. -/
def PortLaw (s : State) : Prop :=
  ∀ p : Port, PortBounds (s.port p) ∧ PortLinks (s.port p) ∧ PortTimer (s.port p)

/-! ## Windows (02) -/

/-- A FAULTED window has a fault record (R41), an ACTIVE one has none (Table 2-3). -/
def RecordLaw (s : State) : Prop :=
  ∀ (t : Dir) (w : Fin 16),
    ((s.window t w).state = .faulted → (s.window t w).fault.isSome = true) ∧
    ((s.window t w).state = .active → (s.window t w).fault = none)

/-- Windows in force have passed ENABLE's checks of their own fields (R31, R32). -/
def EnabledLaw (s : State) : Prop :=
  ∀ (t : Dir) (w : Fin 16), (s.window t w).inForce = true →
    (s.window t w).aligned = true ∧ (s.window t w).fits = true ∧ (s.window t w).bindingOk = true

/-- No two windows of one table in force overlap in address for the same space (R33). -/
def OverlapLaw (s : State) : Prop :=
  ∀ (t : Dir) (v w : Fin 16), v ≠ w → (s.window t v).inForce = true → (s.window t w).inForce = true →
    (s.window t v).space = (s.window t w).space → (s.window t v).meets (s.window t w) = false

/-! ## Request table (04) -/

/-- Is the entry charged to window `w` of table `t`: PENDING, ISSUED or DONE, and not yet delivered (R43)? -/
def chargedTo (t : Dir) (w : Fin 16) (o : Option Entry) : Bool :=
  match o with
  | some x => decide (x.dir = t) && decide (x.window = w) && decide (x.state ≠ .quarantined)
  | none => false

/-- A window's in-flight count is the number of entries charged to it, and 0 in a DISABLED window (R43). -/
def ChargeLaw (s : State) : Prop :=
  ∀ (t : Dir) (w : Fin 16),
    (s.window t w).inFlight = s.entries.toList.countP (chargedTo t w) ∧
    ((s.window t w).state = .disabled → (s.window t w).inFlight = 0)

/-- The reservation inequalities and the bound of the reserves (R62, R74). -/
def ReserveLaw (s : State) : Prop :=
  (∀ x : Dir, s.inUse x + max (s.reserve (otherDir x)) (s.inUse (otherDir x)) ≤ 64) ∧
  s.reserveDown ≤ 32 ∧ s.reserveUp ≤ 32

/-- The entry and segment numbers of the segment packets in a queue, in queue order. -/
def segmentRefs (ks : List EgressPacket) : List (Fin 64 × Nat) :=
  ks.filterMap (fun k => match k with
    | .segment e n _ => some (e, n)
    | _ => none)

/-- Queued segment packets and NOT_SENT segments correspond one to one, and only PENDING entries have them; so no queued
packet refers to a FREE or QUARANTINED entry (R78, R119). -/
def EgressLaw (s : State) : Prop :=
  (∀ p : Port, (segmentRefs (s.port p).egress).Nodup ∧
    ∀ e n, (e, n) ∈ segmentRefs (s.port p).egress →
      ∃ x g, s.entry e = some x ∧ x.state = .pending ∧ forwardPort x.dir = p ∧
        x.segments[n]? = some g ∧ g.state = .notSent) ∧
  ∀ e n x g, s.entry e = some x → x.segments[n]? = some g → g.state = .notSent →
    (e, n) ∈ segmentRefs (s.port (forwardPort x.dir)).egress

/-- What each state of an entry says of its segments, its result and its timers (Table 4-4, R79, R84, R87): a PENDING entry has
a NOT_SENT segment; an ISSUED one has none, but a SENT one; neither has a TIMEOUT mark or a result; a DONE or QUARANTINED one has
all segments resolved, a result and no completion deadline; a QUARANTINED one has a TIMEOUT mark. -/
def EntryLaw (s : State) : Prop :=
  ∀ e x, s.entry e = some x →
    (x.state = .pending → x.unsent = true) ∧
    (x.state = .issued → x.unsent = false ∧ x.resolved = false) ∧
    (x.state = .pending ∨ x.state = .issued → x.timedOut = false ∧ x.result = none) ∧
    (x.state = .done ∨ x.state = .quarantined → x.resolved = true ∧ x.result.isSome = true ∧ x.deadline = none) ∧
    (x.state = .quarantined → x.timedOut = true)

/-- The done order lists the DONE entries, each once, and no other (R90, Table 4-1). -/
def DoneLaw (s : State) : Prop :=
  s.doneOrder.Nodup ∧ ∀ e : Fin 64, e ∈ s.doneOrder ↔ ∃ x, s.entry e = some x ∧ x.state = .done

/-! ## Locks (07) -/

/-- The pairs that hold or wait for a lock. -/
def lockPairs (x : Lock) : List (Node × Port) :=
  x.holder.toList ++ x.waiters.map (fun w => (w.node, w.port))

/-- Each lock has at most 4 waiters, a pair appears at most once among holder and waiters, and a lock with waiters has a
holder or an occupied outbox (R142). An OK grant in the outbox is the holder's, a LOCK_BROKEN one finds no holder (R146, R147),
and a lease runs only for a holder whose grant has been placed (R148). -/
def LockLaw (s : State) : Prop :=
  ∀ k : Fin 8, (s.lock k).waiters.length ≤ 4 ∧ (lockPairs (s.lock k)).Nodup ∧
    ((s.lock k).waiters ≠ [] → (s.lock k).holder ≠ none ∨ (s.lock k).outbox ≠ none) ∧
    (∀ h, (s.lock k).outbox = some h →
      (h.answer.status = .ok ∧ (s.lock k).holder = some (h.answer.node, h.port)) ∨
      (h.answer.status = .lockBroken ∧ (s.lock k).holder = none)) ∧
    ((s.lock k).lease.isSome = true → (s.lock k).holder ≠ none ∧ (s.lock k).outbox = none)

/-! ## Notice unit and timebase (08, 09) -/

/-- The bounds of the notice unit: at most 16 records (R164), saturating counts (R160), no records without a target port
(R163). -/
def NoticeLaw (s : State) : Prop :=
  s.notices.queue.length ≤ 16 ∧ s.notices.droppedSince ≤ 65535 ∧ s.notices.droppedTotal ≤ 4294967295 ∧
    (s.notices.targetPort = none → s.notices.queue = [])

/-- The timebase's bounds: the divider is 25..200 (R187) and the counts toward a tick and a millisecond stay below their ends
(R187, R189). -/
def TimebaseLaw (s : State) : Prop :=
  25 ≤ s.timebase.divider ∧ s.timebase.divider ≤ 200 ∧ s.timebase.refclk < 200 ∧ s.timebase.msProgress ≤ 999

/-! ## RESET_N -/

/-- While RESET_N is low the part holds its power-up values (R197): all of them, but for the model's own queue and free
counter. -/
def HeldInReset (s : State) : Prop :=
  s = { State.reset with freeNext := s.freeNext, pending := s.pending }

/-- While RESET_N is low nothing but the power-up values stands (R20, R197). -/
def ResetLaw (s : State) : Prop := s.resetN = false → HeldInReset s

/-- A window in force never targets the identity of its own forward port (R8, R32). -/
def TargetLaw (s : State) : Prop :=
  ∀ (t : Dir) (w : Fin 16), (s.window t w).inForce = true →
    (s.window t w).target ≠ (s.port (forwardPort t)).identity

/-! ## Rest between events -/

/-- Every free slot of an open port has been given out: a claim waits only while its port's queue is full (R103, R104). -/
def SlotLaw (s : State) : Prop := ∀ p : Port, nextClaim p s = none

/-- A head that waits lacks a resource of its disposal (R49, R60). -/
def WaitLaw (s : State) : Prop := ∀ p : Port, waitingTake p s = false

/-- Nothing is left to settle (R49, R104). Every event leaves the part so. -/
def AtRest (s : State) : Prop := SlotLaw s ∧ WaitLaw s

/-- Every free slot has been given out, and no head waits: what an event changes makes no head be judged again (R49). -/
def Quiet (s : State) : Prop := SlotLaw s ∧ s.portU.headWaits = false ∧ s.portD.headWaits = false

/-! ## A request of the bridge's own at its port -/

/-- Requester `q`'s port can take its request at once: the link is not DOWN, no request waits ahead, and a completion slot is
free (R48, R54); no other head waits. -/
def CanPresent (q : Requester) (s : State) : Prop :=
  Quiet s ∧ (s.port q.port).link ≠ .down ∧ (s.port q.port).ingress = [] ∧ (s.port q.port).completions.length < 16

/-- As `CanPresent`, from a manager (R177). -/
def ManagerCanPresent (q : Requester) (s : State) : Prop := CanPresent q s ∧ s.manager q.node q.port = true

/-- The head of port `p` taken (R50): it leaves the buffer, its credit is owed, and one of the two counters counts it. -/
def headTaken (p : Port) (counted : Bool) (s : State) : State :=
  s.setPort p { s.port p with
    ingress := (s.port p).ingress.drop 1
    headWaits := false
    creditsOwed := min 16 ((s.port p).creditsOwed + 1)
    admitted := if counted then (s.port p).admitted + 1 else (s.port p).admitted
    refused := if counted then (s.port p).refused else (s.port p).refused + 1 }

/-- The head of port `p` waits from here on (R49). -/
def headWaiting (p : Port) (s : State) : State := s.setPort p { s.port p with headWaits := true }

/-- The state in which the management agent or the lock unit takes requester `q`'s request out of an empty buffer (R50): its
credit is owed and it is counted admitted. -/
def taken (q : Requester) (s : State) : State :=
  s.setPort q.port { s.port q.port with
    headWaits := false
    creditsOwed := min 16 ((s.port q.port).creditsOwed + 1)
    admitted := (s.port q.port).admitted + 1 }

/-- The answer to requester `q` at the tail of its port's completion queue (Table 5-2). -/
def answered (q : Requester) (st : Status) (data : List Byte) (s : State) : State :=
  s.setPort q.port { s.port q.port with
    completions := (s.port q.port).completions ++
      [{ node := q.node, tag := q.tag, status := st, detail := none, data := data }] }

/-! ## Delivery, leases and hand-on -/

/-- The charge of window `w` of table `t` released (R43), which ends a drain at 0 (R37). -/
def released (t : Dir) (w : Fin 16) (s : State) : State :=
  s.setWindow t w { s.window t w with
    inFlight := (s.window t w).inFlight - 1
    state :=
      if (s.window t w).state = .draining ∧ (s.window t w).inFlight - 1 = 0 then .disabled
      else (s.window t w).state }

/-- A lease of tLEASE milliseconds in ticks, none for 0 (R141, R188). -/
def leaseTicks (v : BitVec 16) : Option Nat := if v.toNat = 0 then none else some (v.toNat * 1000)

/-- Lock `k`, free and with an empty outbox, handed on (R142, R141): the head waiter holds it under the next generation; its
grant takes a free slot of its port, and the lease starts, or goes to the outbox. -/
def handedOn (k : Fin 8) (s : State) : State :=
  match (s.lock k).waiters with
  | [] => s
  | w :: ws =>
    let x := s.lock k
    let g := x.generation + 1
    let grant : Completion := { node := w.node, tag := w.tag, status := .ok, detail := none, data := bytesBE 4 g.toNat }
    if (s.port w.port).link ≠ .down ∧ (s.port w.port).completions.length < 16 then
      (s.setLock k { x with
          generation := g, holder := some (w.node, w.port), waiters := ws,
          lease := leaseTicks x.tLease }).setPort w.port
        { s.port w.port with completions := (s.port w.port).completions ++ [grant] }
    else
      s.setLock k { x with
        generation := g, holder := some (w.node, w.port), waiters := ws,
        outbox := some { port := w.port, answer := grant } }

/-! ## Requests of the table's rows -/

/-- The CW of value `v` to field `f` from requester `q`, as it arrives at its port. -/
def writeRequest (q : Requester) (f : Field) (v : Nat) (s : State) : Request :=
  requestFor q .cw f.address (BitVec.ofNat 16 f.width) (bytesBE f.width v) s

/-- The request that a row of the table stands for, with its arrival port (notes/assumptions/5.md): ACQUIRE to REGISTER_WRITE
have one, the other rows none. -/
def requestOf (c : Instr) (s : State) : Option (Port × Request) :=
  match c with
  | .acquire q k => some (q.port, requestFor q .rd (LockObject.acquire k).address 4 [] s)
  | .release q k g => some (q.port, requestFor q .cw (LockObject.release k).address 4 (bytesBE 4 g.toNat) s)
  | .breakLock q k => some (q.port, writeRequest q (.breakField k) 1 s)
  | .tleaseWrite q k v => some (q.port, writeRequest q (.tLease k) v.toNat s)
  | .twaitWrite q k v => some (q.port, writeRequest q (.tWait k) v.toNat s)
  | .enable q t w => some (q.port, writeRequest q (.command t w) 1 s)
  | .disable q t w => some (q.port, writeRequest q (.command t w) 2 s)
  | .clearFault q t w => some (q.port, writeRequest q (.command t w) 3 s)
  | .windowFieldWrite q t w (.attributes v) => some (q.port, writeRequest q (.attributes t w) v.toNat s)
  | .windowFieldWrite q t w (.base v) => some (q.port, writeRequest q (.base t w) v.toNat s)
  | .windowFieldWrite q t w (.limit v) => some (q.port, writeRequest q (.limit t w) v.toNat s)
  | .windowFieldWrite q t w (.translatedBase v) => some (q.port, writeRequest q (.translatedBase t w) v.toNat s)
  | .windowFieldWrite q t w (.target v) => some (q.port, writeRequest q (.target t w) v.toNat s)
  | .hitCountClear q t w v => some (q.port, writeRequest q (.hitCount t w) v.toNat s)
  | .nodeIdentityWrite q p v => some (q.port, writeRequest q (.identity p) v.toNat s)
  | .tstallWrite q p v => some (q.port, writeRequest q (.tStall p) v.toNat s)
  | .reserveWrite q x v => some (q.port, writeRequest q (.reserve x) v.toNat s)
  | .tctoWrite q x v => some (q.port, writeRequest q (.tcto x) v.toNat s)
  | .classWrite q n v => some (q.port, writeRequest q (.noticeClass n) v.toNat s)
  | .targetPortWrite q v => some (q.port, writeRequest q .noticePort v.toNat s)
  | .targetNodeWrite q v => some (q.port, writeRequest q .noticeNode v.toNat s)
  | .managerEntryWrite q i v => some (q.port, writeRequest q (.manager i) v.toNat s)
  | .dividerWrite q v => some (q.port, writeRequest q .divider v.toNat s)
  | .softReset q => some (q.port, writeRequest q .reset 1 s)
  | .registerWrite q a n d => some (q.port, requestFor q .cw a n d s)
  | _ => none

end Sys2Proof.Safety
end

