-- ==== Sys2Proof/Certificates/Slice0/Obligations.lean ====
section
/-! DEFINITION. The statements for the provers, one `Obligations.<Name>` each. Names of rules are those of spec/; "log n" is notes/assumptions/n.md. -/

open Sys2Proof Sys2Proof.Machine Sys2Proof.Safety

/-! ## The step -/

/-- A step takes the command at the front of the queue and runs its meaning with the queue's rest (log 1). -/
def Obligations.StepRunsFrontCommand : Prop :=
  ∀ (c : Instr) (rest : List Instr) (s : State), s.pending = c :: rest → step s = exec c { s with pending := rest }

/-- A timer that does not fall due at the next tick: it is off, or whole ticks of it are still to begin (log 11). -/
def Sys2Proof.Safety.timerRuns (o : Option Nat) : Prop := ∀ n, o = some n → 0 < n

/-- The row of the table for what falls due at a tick. -/
def Sys2Proof.Safety.expiryRow : Due → Instr
  | .deadline e => .completionDeadlineExpiry e
  | .quarantine e => .quarantineExpiry e
  | .stall p => .stallTimerExpiry p
  | .lease k => .leaseExpiry k
  | .wait k node p => .waitExpiry k node p
  | .millisecond => .millisecondCountIncrement

/-- With no command waiting, a step counts one REFCLK period (R187, R197; log 2). After `divider` periods there is a tick: where no timer
falls due, every running timer's count falls by 1 (R188) and nothing else changes but the progress toward the next millisecond,
whose 1000th tick increments the count (R189). A timer falls due at the tick that finds its count at 0, all its whole ticks over: the first
at or after its nominal time (R89, R126, R148; log 11). A tick at which exactly one timer is due is the row of that expiry, and
then the count by 1. -/
def Obligations.IdleStepCountsRefclk : Prop :=
  ∀ s : State, s.pending = [] →
    (s.resetN = false → step s = .next s) ∧
    (s.resetN = true → s.timebase.refclk + 1 < s.timebase.divider →
      step s = .next { s with timebase := { s.timebase with refclk := s.timebase.refclk + 1 } }) ∧
    (s.resetN = true → s.timebase.divider ≤ s.timebase.refclk + 1 →
      (∀ p, timerRuns (s.port p).stallTimer) →
      (∀ e x, s.entry e = some x →
        timerRuns (x.deadline.map Deadline.remaining) ∧ timerRuns x.quarantine) →
      (∀ k, timerRuns (s.lock k).lease ∧ ∀ w ∈ (s.lock k).waiters, timerRuns w.deadline) →
      ∃ t, step s = .next t ∧
        (∀ p, t.port p = { s.port p with stallTimer := (s.port p).stallTimer.map (· - 1) }) ∧
        (∀ e, t.entry e = (s.entry e).map (fun x => { x with
          deadline := x.deadline.map (fun d => { d with remaining := d.remaining - 1 })
          quarantine := x.quarantine.map (· - 1) })) ∧
        (∀ k, t.lock k = { s.lock k with
          lease := (s.lock k).lease.map (· - 1)
          waiters := (s.lock k).waiters.map (fun w => { w with deadline := w.deadline.map (· - 1) }) }) ∧
        t = { s with
          portU := t.portU, portD := t.portD, entries := t.entries, locks := t.locks
          timebase :=
            if 999 ≤ s.timebase.msProgress then
              { s.timebase with refclk := 0, msProgress := 0, msCount := s.timebase.msCount + 1 }
            else { s.timebase with refclk := 0, msProgress := s.timebase.msProgress + 1 } }) ∧
    ∀ d, s.resetN = true → s.timebase.divider ≤ s.timebase.refclk + 1 → s.timebase.msProgress < 999 →
      s.timers.filter s.isDue = [d] →
      ∃ u, exec (expiryRow d)
          { s with timebase := { s.timebase with refclk := 0, msProgress := s.timebase.msProgress + 1 } } = .next u ∧
        step s = .next u.countDown

/-! ## Results, losses and raises -/

/-- Result `r` is that of the segments `gs` (R84): OK where all are OK, else the failure of the lowest-numbered FAILED one. -/
def Sys2Proof.Safety.ResultOf (gs : List Segment) (r : Result) : Prop :=
  (r = .ok ∧ ∀ g ∈ gs, g.state = .ok) ∨
  ∃ (i : Nat) (g : Segment) (f : Failure), r = .failed f ∧ gs[i]? = some g ∧ g.state = .failed f ∧
    ∀ j, j < i → ∃ h, gs[j]? = some h ∧ h.state = .ok

/-- An entry's segments after a link loss of its forward port: what was NOT_SENT or SENT is FAILED with LINK_DOWN (R95). -/
def Sys2Proof.Safety.cutOff (gs : List Segment) : List Segment :=
  gs.map (fun g => if g.state = .notSent ∨ g.state = .sent then { g with state := .failed .linkDown } else g)

/-- The segments of an entry whose unsent packets a stall has flushed (R94). -/
def Sys2Proof.Safety.stalledSegments (gs : List Segment) : List Segment :=
  gs.map (fun g => if g.state = .notSent then { g with state := .failed .portStalled } else g)

/-- The losses of the notices in a flushed queue: one for each, and what each carried (R167). -/
def Sys2Proof.Safety.flushedLosses (ks : List EgressPacket) : Nat :=
  ((ks.map (fun k => match k with
    | .notice n => 1 + n.dropped
    | _ => 0))).sum

/-- The notices in a queue. -/
def Sys2Proof.Safety.noticeCount (ks : List EgressPacket) : Nat :=
  ks.countP (fun k => match k with
    | .notice _ => true
    | _ => false)

/-- The notice unit after `since` losses for the next notice and `total` losses in the total, both saturating (R160, R167). -/
def Sys2Proof.Safety.lost (u : NoticeUnit) (since total : Nat) : NoticeUnit :=
  { u with
    droppedSince := min (u.droppedSince + since) 65535
    droppedTotal := min (u.droppedTotal + total) (2 ^ 32 - 1) }

/-- What flushed PASS segments raise, in queue order (R127, R132). -/
def Sys2Proof.Safety.passLosses (st : Status) : List EgressPacket → List Raise
  | [] => []
  | .pass node t w packet :: ks =>
    { kind := .refusedPostedWrite
      details :=
        { port := some (originPort t), node := some node, address := some packet.address, status := some st.code,
          window := some (t, w) } } :: passLosses st ks
  | _ :: ks => passLosses st ks

/-- What the raises of an egress queue flushed at port `p` are, in their order: one for each PASS segment, with status `st`, and the port's
own, of kind `kind` (R127, R132). -/
def Sys2Proof.Safety.flushLosses (st : Status) (kind : NoticeKind) (p : Port) (ks : List EgressPacket) : List Raise :=
  passLosses st ks ++ [{ kind := kind, details := { port := some p } }]

/-- What ABSORBED entry `x` raises when its segments end as `gs`: ABSORBED_WRITE_FAILED with the status of a failed result (R40, R84). -/
def Sys2Proof.Safety.writeFailed (x : Entry) (gs : List Segment) : List Raise :=
  match ({ x with segments := gs }).formResult with
  | .ok => []
  | .failed f =>
    [{ kind := .absorbedWriteFailed
       details :=
         { window := some (x.dir, x.window), address := some x.address, node := some x.node,
           status := some f.status.code } }]

/-- What a link loss of port `p` raises at the window tables: every open ABSORBED entry forwarded there fails (R95, R40). -/
def Sys2Proof.Safety.cutOffWrites (p : Port) (s : State) : List Raise :=
  (List.finRange 64).flatMap (fun e => match s.entry e with
    | some x =>
      if forwardPort x.dir = p ∧ x.kind = .absorbed ∧ (x.state = .pending ∨ x.state = .issued) then
        writeFailed x (cutOff x.segments)
      else []
    | none => [])

/-- What a stall of port `p` raises at the window tables: every ABSORBED entry flushed there with no SENT segment left fails (R94, R40). -/
def Sys2Proof.Safety.stalledWrites (p : Port) (s : State) : List Raise :=
  (List.finRange 64).flatMap (fun e => match s.entry e with
    | some x =>
      if forwardPort x.dir = p ∧ x.kind = .absorbed ∧ x.state = .pending ∧ ∀ g ∈ x.segments, g.state ≠ .sent then
        writeFailed x (stalledSegments x.segments)
      else []
    | none => [])

/-- What a link loss of port `p` raises at the lock unit: LOCK_EXPIRED with cause LINK for each holder there, in lock order (R153). -/
def Sys2Proof.Safety.lockLosses (p : Port) (s : State) : List Raise :=
  (List.finRange 8).filterMap (fun k => match (s.lock k).holder with
    | some (n, q) =>
      if q = p then
        some { kind := .lockExpired, details := { lock := some k, node := some n, port := some p, cause := some .link } }
      else none
    | none => none)

/-- Raises `rs` judged in turn, after the notices among `ks` have been counted as flushed (R161, R167). -/
def Sys2Proof.Safety.noticesAfter (ks : List EgressPacket) (rs : List Raise) (s : State) : NoticeUnit :=
  (raiseAll rs { s with notices := lost s.notices (flushedLosses ks) (noticeCount ks) }).notices

/-! ## Reset pins -/

/-- Power-up reset gives every window of both tables the values of Table 2-9 (R45). -/
def Obligations.PowerUpSetsWindows : Prop :=
  ∀ s : State, ∃ t, exec .powerUpReset s = .next t ∧ ∀ (d : Dir) (w : Fin 16),
    t.window d w =
      { state := .disabled, space := .memory, base := 0, limit := 0, translatedBase := 0, target := 0,
        readAllowed := false, writeAllowed := false, posting := .absorb, granule := .whole, lockBinding := none,
        inFlight := 0, hits := 0, fault := none }

/-- Power-up reset frees the request table (R99) and the locks (R158), and silences the notice unit (R171). -/
def Obligations.PowerUpClearsBlocks : Prop :=
  ∀ s : State, ∃ t, exec .powerUpReset s = .next t ∧
    (∀ e, t.entry e = none) ∧ (∀ x, t.inUse x = 0) ∧ (∀ x, t.reserve x = 8) ∧ (∀ x, t.tcto x = .ms64) ∧
    t.doneOrder = [] ∧
    (∀ k, t.lock k =
      { holder := none, generation := 0, tLease := 1000, tWait := 5000, lease := none, waiters := [], outbox := none,
        expired := [] }) ∧
    (∀ k node port tag, ((t.lock k).grant node port tag).generation = 1) ∧
    t.notices.queue = [] ∧ t.notices.nextSequence = 0 ∧ t.notices.droppedSince = 0 ∧ t.notices.droppedTotal = 0 ∧
    t.notices.targetPort = none ∧ t.notices.targetNode = 0 ∧
    (∀ k, t.noticeClass k =
      if k = .absorbedWriteFailed ∨ k = .portStalled ∨ k = .linkDown ∨ k = .creditOverrun then .urgent else .routine) ∧
    (∀ r, (stamp t.notices r).sequence = 0) ∧
    ∀ (u : State) (x : Raise), u.notices.targetPort = none → raise x u = u

/-- Power-up reset holds RESET_N low, both ports DOWN and empty with zero counters (R20, R13, R17, R19, R101, R119, R123,
R125), an empty manager list (R176) and the timebase at divider 100 and count 0 (R187, R189). The waiting commands stay (log 1). -/
def Obligations.PowerUpHoldsPortsDown : Prop :=
  ∀ s : State, ∃ t, exec .powerUpReset s = .next t ∧ t.resetN = false ∧ t.pending = s.pending ∧
    (∀ p, (t.port p).link = .down ∧ (t.port p).ingress = [] ∧ (t.port p).creditsOwed = 0 ∧
      (t.port p).completions = [] ∧ (t.port p).egress = [] ∧ (t.port p).credits = 0 ∧
      (t.port p).tStall = .ms1 ∧ (t.port p).stallTimer = none ∧ (t.port p).lastChoice = .completion ∧
      (t.port p).admitted = 0 ∧ (t.port p).refused = 0 ∧ (t.port p).stray = 0 ∧ (t.port p).discard = 0) ∧
    (∀ i : Fin 4, t.managers[i] = { valid := false, node := 0, port := .u }) ∧
    (∀ node port, t.manager node port = true) ∧
    t.timebase.divider = 100 ∧ t.timebase.msCount = 0

/-- The rise of RESET_N loads the straps into both identities and starts the timebase from 0 (R197, R7); nothing else changes.
With RESET_N high there is no rise, and nothing happens (log 9). -/
def Obligations.DeassertionLoadsStraps : Prop :=
  ∀ (straps : Node) (s : State),
    (s.resetN = false → exec (.resetNDeassertion straps) s = .next
      { s with
        resetN := true
        portU := { s.portU with identity := straps }
        portD := { s.portD with identity := straps }
        timebase := { divider := s.timebase.divider, refclk := 0, msProgress := 0, msCount := 0 } }) ∧
    (s.resetN = true → exec (.resetNDeassertion straps) s = .next s)

/-- While RESET_N is low the part holds its power-up values: no event but the rise of RESET_N changes anything (R197, R20). -/
def Obligations.HeldResetIgnoresCommands : Prop :=
  ∀ (c : Instr) (s : State), HeldInReset s → (∀ straps, c ≠ .resetNDeassertion straps) → exec c s = .next s

/-! ## Link events -/

/-- Link establishment opens a DOWN port: UP, 16 credits owed, the first choice between the queues to the egress queue (R10, R13),
and LINK_UP given to the notice unit; nothing else changes where no head waits and no claim waits for the port. Elsewhere it
does not occur (R1, R20; log 9) and changes nothing. -/
def Obligations.LinkEstablishmentOpensPort : Prop :=
  ∀ (p : Port) (s : State),
    (s.resetN = true → (s.port p).link = .down → Quiet s → topClaim p s = none →
      exec (.linkEstablishment p) s = .next
        (raise { kind := .linkUp, details := { port := some p } }
          (s.setPort p { s.port p with link := .up, creditsOwed := 16, lastChoice := .completion }))) ∧
    (s.resetN = false ∨ (s.port p).link ≠ .down → exec (.linkEstablishment p) s = .next s)

/-- Link loss closes a port (R11, R112, R132): the port's buffers, credits and timer are gone, its identity, counters, tSTALL and
last choice kept; no lock has a holder, a waiter, an outbox grant or an expiry answer there (R153, R154); the other port at most
gains completions; windows keep their configuration and hit counts (R47), and the settings of all blocks stand. The notice unit
counts the flushed notices (R167) and judges these raises, in some order that keeps each block's own (R161): REFUSED_POSTED_WRITE with
LINK_DOWN for each flushed PASS segment, then LINK_DOWN with the port (R132); LOCK_EXPIRED with cause LINK for each holder there, in lock
order (R153); ABSORBED_WRITE_FAILED for each open ABSORBED entry forwarded there that fails (R95, R40). Stated where the other
port's head does not wait: such a head is judged again at the event (R68). -/
def Obligations.LinkLossClosesPort : Prop :=
  ∀ (p : Port) (s : State), (s.port p).link ≠ .down → (s.port (otherPort p)).headWaits = false →
    ∃ t, exec (.linkLoss p) s = .next t ∧
      t.port p = { s.port p with
        link := .down, ingress := [], headWaits := false, creditsOwed := 0, completions := [], egress := [], credits := 0,
        stallTimer := none } ∧
      (∃ cs, t.port (otherPort p) = { s.port (otherPort p) with
        completions := (s.port (otherPort p)).completions ++ cs }) ∧
      (∀ k, (∀ n, (t.lock k).holder ≠ some (n, p)) ∧ (∀ w ∈ (t.lock k).waiters, w.port ≠ p) ∧
        (∀ h, (t.lock k).outbox = some h → h.port ≠ p) ∧ (∀ h ∈ (t.lock k).expired, h.port ≠ p) ∧
        (t.lock k).tLease = (s.lock k).tLease ∧ (t.lock k).tWait = (s.lock k).tWait) ∧
      (∀ d w, ∃ st n f, t.window d w = { s.window d w with state := st, inFlight := n, fault := f }) ∧
      (∀ x, t.reserve x = s.reserve x ∧ t.tcto x = s.tcto x) ∧
      t.notices.classes = s.notices.classes ∧ t.notices.targetPort = s.notices.targetPort ∧
      t.notices.targetNode = s.notices.targetNode ∧ t.notices.nextSequence = s.notices.nextSequence ∧
      t.managers = s.managers ∧ t.timebase = s.timebase ∧ t.resetN = s.resetN ∧ t.pending = s.pending ∧
      (NoticeLaw s → ChargeLaw s → ∃ rs : List Raise,
        rs.Perm (flushLosses .linkDown .linkDown p (s.port p).egress ++ lockLosses p s ++ cutOffWrites p s) ∧
        (flushLosses .linkDown .linkDown p (s.port p).egress).Sublist rs ∧
        (lockLosses p s).Sublist rs ∧
        t.notices = noticesAfter (s.port p).egress rs s)

/-- A DONE entry's segments after a link loss of its forward port: TIMEOUT marks are LINK_DOWN (R95). -/
def Sys2Proof.Safety.unmarked (gs : List Segment) : List Segment :=
  gs.map (fun g => if g.state = .failed .timeout then { g with state := .failed .linkDown } else g)

/-- Link loss at the request table, entry by entry (R95, R96). An entry forwarded at the lost port fails with LINK_DOWN where it is
open: ABSORBED or orphaned it is freed, and an ABSORBED one faults its ACTIVE window (R40); READ or CONFIRMED it is DONE, and freed
when the origin port gives its completion a slot, which needs one free. A DONE one loses its TIMEOUT marks; a QUARANTINED one is
freed. An entry that arrived at the lost port is orphaned where it is open, delivered without an answer where it is DONE (R92),
unchanged in QUARANTINED. -/
def Obligations.LinkLossResolvesEntries : Prop :=
  ∀ (p : Port) (s : State), EntryLaw s → (s.port p).link ≠ .down → (s.port (otherPort p)).headWaits = false →
    ∃ t, exec (.linkLoss p) s = .next t ∧ ∀ e x, s.entry e = some x →
      (forwardPort x.dir = p →
        ((x.state = .pending ∨ x.state = .issued) → (x.kind = .absorbed ∨ x.orphaned = true) → t.entry e = none) ∧
        ((x.state = .pending ∨ x.state = .issued) → x.kind = .absorbed →
          (s.window x.dir x.window).state = .active →
          (t.window x.dir x.window).state = .faulted ∧ (t.window x.dir x.window).fault.isSome = true) ∧
        ((x.state = .pending ∨ x.state = .issued) → x.kind ≠ .absorbed → x.orphaned = false →
          t.entry e = some { x with
            state := .done
            segments := cutOff x.segments
            result := some ({ x with segments := cutOff x.segments }).formResult
            deadline := none } ∨
          t.entry e = none ∧ slotFree (originPort x.dir) s = true) ∧
        (x.state = .done →
          t.entry e = some { x with segments := unmarked x.segments } ∨
          t.entry e = none ∧ slotFree (originPort x.dir) s = true) ∧
        (x.state = .quarantined → t.entry e = none)) ∧
      (originPort x.dir = p →
        ((x.state = .pending ∨ x.state = .issued) → t.entry e = some { x with orphaned := true }) ∧
        (x.state = .done → t.entry e =
          if x.timedOut then
            some { x with
              state := .quarantined, orphaned := true, buffer := [], deadline := none, quarantine := x.tQuar }
          else none) ∧
        (x.state = .quarantined → t.entry e = some x))

/-! ## Arrivals -/

/-- A request that arrives at an UP or STALLED port is stored at the tail of the ingress buffer (1.5), or, with 16 slots in use, discarded
as an overrun: the discard count rises and CREDIT_OVERRUN is raised, and nothing else changes (1.6). A DOWN port delivers nothing (1.1):
that the command then changes nothing is the model's reading (log 9). -/
def Obligations.RequestArrivalStoredOrOverrun : Prop :=
  ∀ (p : Port) (r : Request) (s : State),
    ((s.port p).link ≠ .down → (s.port p).ingress.length < 16 →
      exec (.requestArrival p r) s = .next
        (s.setPort p { s.port p with ingress := (s.port p).ingress ++ [r] })) ∧
    ((s.port p).link ≠ .down → 16 ≤ (s.port p).ingress.length →
      exec (.requestArrival p r) s = .next
        (raise { kind := .creditOverrun, details := { port := some p, node := some r.src } }
          (s.setPort p { s.port p with discard := (s.port p).discard + 1 }))) ∧
    ((s.port p).link = .down → exec (.requestArrival p r) s = .next s)

/-- An arriving notice (R5), a CRD with an increment outside 1..16 and a packet of undefined kind (R6) are discarded and counted in
the discard count; nothing else changes, at an UP and at a STALLED port alike. A DOWN port delivers none (1.1): that the command
then changes nothing is the model's reading (log 9). -/
def Obligations.DiscardedArrivalsAreCounted : Prop :=
  ∀ (p : Port) (c : Instr) (s : State),
    ((∃ n, c = .noticeArrival p n) ∨ (∃ i : Byte, c = .creditArrival p i ∧ (i.toNat = 0 ∨ 16 < i.toNat)) ∨
      (∃ b, c = .undefinedPacketArrival p b ∧ readPacket b = .undefinedKind)) →
    ((s.port p).link ≠ .down →
      exec c s = .next (s.setPort p { s.port p with discard := (s.port p).discard + 1 })) ∧
    ((s.port p).link = .down → exec c s = .next s)

/-- A CRD with an increment in 1..16 adds to the credit counter, saturating at 32, stops the stall timer and returns a STALLED port
to UP (R123, R126, R129); nothing else changes where no head waits. A DOWN port delivers none (1.1): that the command then
changes nothing is the model's reading (log 9). -/
def Obligations.CreditArrivalAddsSaturating : Prop :=
  ∀ (p : Port) (i : Byte) (s : State), 1 ≤ i.toNat → i.toNat ≤ 16 →
    ((s.port p).link ≠ .down → Quiet s →
      exec (.creditArrival p i) s = .next (s.setPort p { s.port p with
        credits := min 32 ((s.port p).credits + i.toNat)
        stallTimer := none
        link := .up })) ∧
    ((s.port p).link = .down → exec (.creditArrival p i) s = .next s)

/-- A CRD arrival and a departure of the egress head in either order, with the counter at `c` before both and a CRD of increment
`n` (R124): the CRD first ends at min (c + n) 32 - 1, the departure first at min (c - 1 + n) 32. Two CRDs saturate in turn. -/
def Obligations.CreditAndDepartureInEitherOrder : Prop :=
  ∀ (p : Port) (i j : Byte) (s : State), Quiet s →
    1 ≤ i.toNat → i.toNat ≤ 16 → 1 ≤ j.toNat → j.toNat ≤ 16 →
    ((s.port p).choice = .egress →
      1 ≤ (s.port p).credits ∧
      (∃ a b, exec (.creditArrival p i) s = .next a ∧ exec (.egressDeparture p) a = .next b ∧
        (a.port p).credits = min ((s.port p).credits + i.toNat) 32 ∧
        (b.port p).credits = min ((s.port p).credits + i.toNat) 32 - 1 ∧
        ((s.port p).credits + i.toNat ≤ 32 → (b.port p).credits = (s.port p).credits + i.toNat - 1) ∧
        (32 < (s.port p).credits + i.toNat → (b.port p).credits = 31)) ∧
      (∃ a b, exec (.egressDeparture p) s = .next a ∧ exec (.creditArrival p i) a = .next b ∧
        (a.port p).credits = (s.port p).credits - 1 ∧
        (b.port p).credits = min ((s.port p).credits - 1 + i.toNat) 32 ∧
        ((s.port p).credits + i.toNat ≤ 32 → (b.port p).credits = (s.port p).credits + i.toNat - 1) ∧
        (33 ≤ (s.port p).credits + i.toNat → (b.port p).credits = 32))) ∧
    ((s.port p).link ≠ .down →
      ∃ a b, exec (.creditArrival p i) s = .next a ∧ exec (.creditArrival p j) a = .next b ∧
        (b.port p).credits = min (min ((s.port p).credits + i.toNat) 32 + j.toNat) 32)

/-- Completion `c` at port `p` answers segment `g` of entry `x` (R80): the entry that the tag names is open, forwards at `p`, and the
segment that the tag names is SENT to the completion's source. -/
def Sys2Proof.Safety.Answers (p : Port) (c : CplPacket) (s : State) (x : Entry) (g : Segment) : Prop :=
  s.entry (tagEntry c.tag) = some x ∧ x.segments[c.tag.toNat % 4]? = some g ∧
    (x.state = .pending ∨ x.state = .issued) ∧ forwardPort x.dir = p ∧ g.state = .sent ∧ c.src = x.target

/-- Completion `c` at port `p` is late for segment `g` of entry `x` (R81). -/
def Sys2Proof.Safety.Late (p : Port) (c : CplPacket) (s : State) (x : Entry) (g : Segment) : Prop :=
  s.entry (tagEntry c.tag) = some x ∧ x.segments[c.tag.toNat % 4]? = some g ∧
    (x.state = .done ∨ x.state = .quarantined) ∧ forwardPort x.dir = p ∧ g.state = .failed .timeout

/-- A completion that answers no segment is discarded and counted stray (R14, R81, R82): addressed elsewhere, STRAY_COMPLETION
without status; late, LATE_COMPLETION with the entry's window, the segment's address and the status; else STRAY_COMPLETION with
the status. Nothing else changes. A DOWN port delivers none (1.1): that the command then changes nothing is the
model's reading (log 9). -/
def Obligations.UnmatchedCompletionIsStrayOrLate : Prop :=
  ∀ (p : Port) (c : CplPacket) (s : State), AtRest s →
    ((s.port p).link ≠ .down → c.dst ≠ (s.port p).identity →
      exec (.completionArrival p c) s = .next
        (raise { kind := .strayCompletion, details := { port := some p, node := some c.src } }
          (s.setPort p { s.port p with stray := (s.port p).stray + 1 }))) ∧
    ((s.port p).link ≠ .down → c.dst = (s.port p).identity →
      (∀ x g, ¬ Answers p c s x g) → (∀ x g, ¬ Late p c s x g) →
      exec (.completionArrival p c) s = .next
        (raise { kind := .strayCompletion, details := { port := some p, node := some c.src, status := some c.status } }
          (s.setPort p { s.port p with stray := (s.port p).stray + 1 }))) ∧
    (∀ x g, (s.port p).link ≠ .down → c.dst = (s.port p).identity → Late p c s x g →
      exec (.completionArrival p c) s = .next
        (raise
          { kind := .lateCompletion
            details :=
              { port := some p, window := some (x.dir, x.window), address := some (x.address + BitVec.ofNat 40 g.offset),
                node := some c.src, status := some c.status } }
          (s.setPort p { s.port p with stray := (s.port p).stray + 1 }))) ∧
    ((s.port p).link = .down → exec (.completionArrival p c) s = .next s)

/-- What completion `c` makes of segment `g` of an entry of kind `kind` (R83). -/
def Sys2Proof.Safety.answerState (kind : EntryKind) (g : Segment) (c : CplPacket) : SegState :=
  if c.status.toNat ≠ 0 then .failed (.targetError c.status)
  else if (kind = .read ∧ c.data.length = g.length) ∨ (kind ≠ .read ∧ c.data.length = 0) then .ok
  else .failed .malformed

/-- Entry `x` with the segment that completion `c` answers resolved; the data of a READ segment that is OK stands in the buffer at the
segment's offset (R83). -/
def Sys2Proof.Safety.resolvedBy (x : Entry) (g : Segment) (c : CplPacket) : Entry :=
  { x with
    segments := x.segments.set (c.tag.toNat % 4) { g with state := answerState x.kind g c }
    buffer :=
      if x.kind = .read ∧ answerState x.kind g c = .ok then
        x.buffer.take g.offset ++ c.data ++ x.buffer.drop (g.offset + c.data.length)
      else x.buffer }

/-- Is every segment of a list OK or FAILED? -/
def Sys2Proof.Safety.Resolved (gs : List Segment) : Prop := ∀ g ∈ gs, g.state ≠ .notSent ∧ g.state ≠ .sent

/-- An answer resolves its segment (R80, R83): OK, MALFORMED or TARGET_ERROR by its status and the size of its data, a READ's data
stored at the segment's offset. While another segment is unresolved nothing else changes: the entry keeps its state and its
deadline. -/
def Obligations.MatchedAnswerResolvesSegment : Prop :=
  ∀ (p : Port) (c : CplPacket) (s : State) (x : Entry) (g : Segment), AtRest s →
    (s.port p).link ≠ .down → c.dst = (s.port p).identity → Answers p c s x g →
    ¬ Resolved (resolvedBy x g c).segments →
    exec (.completionArrival p c) s = .next (s.setEntry (tagEntry c.tag) (some (resolvedBy x g c)))

/-- The completion of a READ or CONFIRMED entry with result `r` (R90, R107 to R109): the detail with TARGET_ERROR only, the buffer
whole for a READ that is OK. -/
def Sys2Proof.Safety.resultCompletion (x : Entry) (r : Result) : Completion where
  node := x.node
  tag := x.tag
  status := match r with
    | .ok => .ok
    | .failed f => f.status
  detail := match r with
    | .failed (.targetError d) => some d
    | _ => none
  data := if x.kind = .read ∧ r = .ok then x.buffer else []

/-- The answer that resolves the last segment of a READ or CONFIRMED entry gives the entry its result (R84). Where the origin port
has a free slot the completion is placed, the window's charge released and the entry FREE, at this event (R90, R103, R85); where it has
none the entry is DONE, last in the done order; an orphaned entry is freed without a completion (R92). Nothing else changes where
no head waits. -/
def Obligations.LastAnswerAnswersRequester : Prop :=
  ∀ (p : Port) (c : CplPacket) (s : State) (x : Entry) (g : Segment), Quiet s → EntryLaw s → DoneLaw s →
    (s.port p).link ≠ .down → c.dst = (s.port p).identity → Answers p c s x g → x.kind ≠ .absorbed →
    Resolved (resolvedBy x g c).segments →
    ∃ r, ResultOf (resolvedBy x g c).segments r ∧
      (x.orphaned = false → slotFree (originPort x.dir) s = true →
        exec (.completionArrival p c) s = .next
          ((released x.dir x.window
            (s.setPort (originPort x.dir) { s.port (originPort x.dir) with
              completions := (s.port (originPort x.dir)).completions ++
                [resultCompletion (resolvedBy x g c) r] })).setEntry (tagEntry c.tag) none)) ∧
      (x.orphaned = false → slotFree (originPort x.dir) s = false →
        exec (.completionArrival p c) s = .next
          { s.setEntry (tagEntry c.tag)
              (some { resolvedBy x g c with state := .done, result := some r, deadline := none }) with
            doneOrder := s.doneOrder ++ [tagEntry c.tag] }) ∧
      (x.orphaned = true →
        exec (.completionArrival p c) s = .next
          ((released x.dir x.window s).setEntry (tagEntry c.tag) none))

/-- What a failed absorbed write makes of its window (R40, R41). -/
def Sys2Proof.Safety.faulted (x : Entry) (st : Status) (w : Window) : Window :=
  match w.state with
  | .active =>
    { w with state := .faulted, fault := some { address := x.address, node := x.node, status := st, later := 0 } }
  | _ =>
    match w.fault with
    | none => { w with fault := some { address := x.address, node := x.node, status := st, later := 0 } }
    | some f => { w with fault := some { f with later := min 255 (f.later + 1) } }

/-- The answer that resolves the last segment of an ABSORBED entry delivers it at this event (R91): a failure faults its window, or
counts in the record, with ABSORBED_WRITE_FAILED raised (R40, R41); then the charge is released (R43, R37) and the entry is FREE,
orphaned or not. An OK result changes the in-flight count only. Nothing else changes where no head waits. -/
def Obligations.LastAnswerAppliesAbsorbedWrite : Prop :=
  ∀ (p : Port) (c : CplPacket) (s : State) (x : Entry) (g : Segment), Quiet s → EntryLaw s → DoneLaw s →
    (s.port p).link ≠ .down → c.dst = (s.port p).identity → Answers p c s x g → x.kind = .absorbed →
    (s.window x.dir x.window).state ≠ .disabled →
    Resolved (resolvedBy x g c).segments →
    ∃ r, ResultOf (resolvedBy x g c).segments r ∧
      (r = .ok → exec (.completionArrival p c) s = .next
        ((released x.dir x.window s).setEntry (tagEntry c.tag) none)) ∧
      ∀ f, r = .failed f → exec (.completionArrival p c) s = .next
        (raise
          { kind := .absorbedWriteFailed
            details :=
              { window := some (x.dir, x.window), address := some x.address, node := some x.node,
                status := some f.status.code } }
          ((released x.dir x.window
            (s.setWindow x.dir x.window (faulted x f.status (s.window x.dir x.window)))).setEntry
              (tagEntry c.tag) none))

/-! ## Departures -/

/-- The egress head of a port is ready (R122): UP, credit above 0, and a packet queued. -/
def Sys2Proof.Safety.egressReady (x : PortState) : Prop := x.link = .up ∧ 0 < x.credits ∧ x.egress ≠ []

/-- The row that gives claim `c` its slot of port `p` (R104; log 7). -/
def Sys2Proof.Safety.claimRow (p : Port) : Claim → Instr
  | .outbox k => .outboxGrantPlacing k
  | .expired k => .expiryAnswerPlacing k p
  | .done e => .doneEntryDelivery e

/-- The completion that claim `c` places at port `p` (R146, R151, R90). -/
def Sys2Proof.Safety.claimAnswer (p : Port) (s : State) : Claim → Completion → Prop
  | .outbox k, a => ∃ h, (s.lock k).outbox = some h ∧ h.port = p ∧ a = h.answer
  | .expired k, a => ∃ h pre post, (s.lock k).expired = pre ++ h :: post ∧ h.port = p ∧ (∀ g ∈ pre, g.port ≠ p) ∧
      a = h.answer
  | .done e, a => ∃ x r, s.entry e = some x ∧ x.state = .done ∧ originPort x.dir = p ∧ x.result = some r ∧
      a = resultCompletion x r

/-- A CRD leaves first whenever credits are owed: it carries them all, and none is owed any more (R17, R13). A completion leaves when no
CRD waits and either the egress head is not ready or the egress queue had the last choice: the head of the queue, with the port's
identity as source (R102, R4, R194); where no claim and no head waits nothing else changes. From a full queue with claims waiting, the
freed slot goes at the same event to the highest-ranked one (R102, R104), whose completion becomes the tail: what its own row does with
the slot. Else none leaves (log 8). `lane` is the model's own (log 12). -/
def Obligations.CreditAndCompletionDepartures : Prop :=
  ∀ (p : Port) (s : State),
    ((s.port p).link ≠ .down → 0 < (s.port p).creditsOwed →
      exec (.crdDeparture p) s = .next (s.setPort p { s.port p with
        creditsOwed := 0, lane := [0x0F, BitVec.ofNat 8 (s.port p).creditsOwed, 0, 0] }) ∧
      exec (.completionDeparture p) s = .next s ∧ exec (.egressDeparture p) s = .next s) ∧
    ((s.port p).link = .down ∨ (s.port p).creditsOwed = 0 → exec (.crdDeparture p) s = .next s) ∧
    (∀ c rest, Quiet s → topClaim p s = none → (s.port p).link ≠ .down → (s.port p).creditsOwed = 0 →
      (s.port p).completions = c :: rest →
      (egressReady (s.port p) → (s.port p).lastChoice = .egress →
        exec (.completionDeparture p) s = .next (s.setPort p { s.port p with
          completions := rest, lastChoice := .completion
          lane := completionBytes c.status.code c.node (s.port p).identity c.tag c.detail c.data })) ∧
      (egressReady (s.port p) → (s.port p).lastChoice = .completion →
        exec (.completionDeparture p) s = .next s) ∧
      (¬ egressReady (s.port p) →
        exec (.completionDeparture p) s = .next (s.setPort p { s.port p with
          completions := rest
          lane := completionBytes c.status.code c.node (s.port p).identity c.tag c.detail c.data }))) ∧
    (∀ c rest cl last, (s.port p).link ≠ .down → (s.port p).creditsOwed = 0 → (s.port p).completions = c :: rest →
      rest.length = 15 → topClaim p s = some cl → nextClaim (otherPort p) s = none →
      s.portU.headWaits = false → s.portD.headWaits = false → EntryLaw s →
      (egressReady (s.port p) → (s.port p).lastChoice = .egress ∧ last = .completion) →
      (¬ egressReady (s.port p) → last = (s.port p).lastChoice) →
      exec (.completionDeparture p) s = exec (claimRow p cl) (s.setPort p { s.port p with
        completions := rest
        lastChoice := last
        lane := completionBytes c.status.code c.node (s.port p).identity c.tag c.detail c.data }) ∧
      ∃ t a, exec (.completionDeparture p) s = .next t ∧ claimAnswer p s cl a ∧ (t.port p).completions = rest ++ [a]) ∧
    ((s.port p).link = .down ∨ (s.port p).completions = [] → exec (.completionDeparture p) s = .next s)

/-- A port whose egress head `k` has left (R122, R126, R13): one credit spent, and the stall timer starts where the counter is 0 and packets
remain. -/
def Sys2Proof.Safety.headSent (x : PortState) (k : EgressPacket) (rest : List EgressPacket) : PortState :=
  { x with
    egress := rest
    credits := x.credits - 1
    lastChoice := if x.completions = [] then x.lastChoice else .egress
    stallTimer := if x.credits = 1 ∧ rest ≠ [] then x.tStall.ticks else x.stallTimer
    lane := k.bytes x.identity }

/-- The egress head leaves when it is ready, no CRD waits, and the completion queue is empty or had the last choice (R122, R13): one
credit is spent, and the packet carries the port's identity as source. A segment becomes SENT; its entry's first departure sets the
deadline to tCTO, none for OFF; an entry with no NOT_SENT segment left is ISSUED (R79). Nothing else changes where no head waits. A port
with no credit, or that is not UP, sends no request and no notice: that the row then changes nothing is the model's reading (log 8). `lane`
is the model's own (log 12). -/
def Obligations.EgressDepartureSendsHead : Prop :=
  ∀ (p : Port) (s : State),
    ((s.port p).credits = 0 ∨ (s.port p).link ≠ .up → exec (.egressDeparture p) s = .next s) ∧
    (∀ k rest, Quiet s → (s.port p).link = .up → 0 < (s.port p).credits → (s.port p).creditsOwed = 0 →
      (s.port p).completions = [] ∨ (s.port p).lastChoice = .completion → (s.port p).egress = k :: rest →
      ((∀ e n q, k ≠ .segment e n q) →
        exec (.egressDeparture p) s = .next (s.setPort p (headSent (s.port p) k rest))) ∧
      (∀ e n q x g, k = .segment e n q → s.entry e = some x → x.segments[n]? = some g → g.state = .notSent →
        (x.state = .pending ∨ x.state = .issued) →
        exec (.egressDeparture p) s = .next
          ((s.setPort p (headSent (s.port p) k rest)).setEntry e (some { x with
            segments := x.segments.set n { g with state := .sent }
            deadline :=
              if ∀ h ∈ x.segments, h.state = .notSent then
                (s.tcto x.dir).ticks.map (fun n => { remaining := n, setting := s.tcto x.dir })
              else x.deadline
            state :=
              if ∃ h ∈ x.segments.set n { g with state := .sent }, h.state = .notSent then .pending else .issued }))))

/-! ## Admission -/

/-- Check 1 (R52): the request is well formed for a port with identity `identity`. -/
def Sys2Proof.Safety.WellFormedRequest (identity : Node) (r : Request) : Prop :=
  1 ≤ r.length.toNat ∧ r.length.toNat ≤ 256 ∧
    (r.kind = .rd → r.data = []) ∧ (r.kind ≠ .rd → r.data.length = r.length.toNat) ∧
    (r.space.toNat = 0 ∨ r.space.toNat = 1 ∨ r.space.toNat = 2) ∧
    ¬ (r.kind = .pw ∧ r.space.toNat = 2 ∧ r.dst ≠ identity)

/-- Window `w` matches the request (R26): in force, of its space, and its first byte in range. -/
def Sys2Proof.Safety.Hits (w : Window) (r : Request) : Prop :=
  w.state ≠ .disabled ∧ w.space.code = r.space ∧ w.base.toNat ≤ r.address.toNat ∧ r.address.toNat ≤ w.limit.toNat

/-- Check 7 (R55): the window allows the request's kind. -/
def Sys2Proof.Safety.Allows (w : Window) (r : Request) : Prop :=
  (r.kind = .rd → w.readAllowed = true) ∧ (r.kind ≠ .rd → w.writeAllowed = true)

/-- Check 8 (R56): the window is bound to no lock, or its lock's holder is the requester's pair, with an empty outbox. -/
def Sys2Proof.Safety.Binds (p : Port) (s : State) (w : Window) (r : Request) : Prop :=
  ∀ k, w.lockBinding = some k →
    ∃ h : k.toNat < 8, (s.lock ⟨k.toNat, h⟩).holder = some (r.src, p) ∧ (s.lock ⟨k.toNat, h⟩).outbox = none

/-- The head `r` of port `p` is refused with `st` (R58, R59, R50): a PW is taken at once and REFUSED_POSTED_WRITE raised, with window
`w` when one matched; an RD or CW is taken and answered when a completion slot is free, and waits when none is. -/
def Sys2Proof.Safety.RefusedWith (p : Port) (r : Request) (st : Status) (w : Option (Fin 16)) (s : State) : Prop :=
  (r.kind = .pw → exec (.admissionJudgement p) s = .next
    (raise
      { kind := .refusedPostedWrite
        details :=
          { port := some p, node := some r.src, address := some r.address, status := some st.code,
            window := w.map (fun n => (dirOf p, n)) } }
      (headTaken p false s))) ∧
  (r.kind ≠ .pw → (s.port p).completions.length < 16 → exec (.admissionJudgement p) s = .next
    (answered { port := p, node := r.src, tag := r.tag } st [] (headTaken p false s))) ∧
  (r.kind ≠ .pw → 16 ≤ (s.port p).completions.length → exec (.admissionJudgement p) s = .next (headWaiting p s))

/-- The checks of Table 3-1 in their order (R51 to R57), the first that fails refusing the head. -/
def Obligations.AdmissionRefusalsInOrder : Prop :=
  ∀ (p : Port) (r : Request) (rest : List Request) (s : State), Quiet s → OverlapLaw s →
    (s.port p).link ≠ .down → (s.port p).ingress = r :: rest →
    (¬ WellFormedRequest (s.port p).identity r → RefusedWith p r .badRequest none s) ∧
    (WellFormedRequest (s.port p).identity r →
      (r.dst ≠ (s.port p).identity → RefusedWith p r .misrouted none s) ∧
      (r.dst = (s.port p).identity →
        (r.space.toNat = 2 → r.kind = .pw → RefusedWith p r .badRequest none s) ∧
        (r.space.toNat ≠ 2 → (∀ w, ¬ Hits (s.window (dirOf p) w) r) → RefusedWith p r .unmapped none s) ∧
        ∀ w, Hits (s.window (dirOf p) w) r →
          ((s.window (dirOf p) w).limit.toNat < r.address.toNat + r.length.toNat - 1 →
            RefusedWith p r .boundary (some w) s) ∧
          (r.address.toNat + r.length.toNat - 1 ≤ (s.window (dirOf p) w).limit.toNat →
            ((s.window (dirOf p) w).state = .draining → RefusedWith p r .windowClosed (some w) s) ∧
            ((s.window (dirOf p) w).state = .faulted → RefusedWith p r .windowFault (some w) s) ∧
            ((s.window (dirOf p) w).state = .active →
              (¬ Allows (s.window (dirOf p) w) r → RefusedWith p r .access (some w) s) ∧
              (Allows (s.window (dirOf p) w) r →
                (¬ Binds p s (s.window (dirOf p) w) r → RefusedWith p r .locked (some w) s) ∧
                (Binds p s (s.window (dirOf p) w) r →
                  ((s.port (forwardPort (dirOf p))).link = .down → RefusedWith p r .portDown (some w) s) ∧
                  ((s.port (forwardPort (dirOf p))).link = .stalled → RefusedWith p r .portStalled (some w) s)))))))

/-- A row of the table that is a request to the bridge itself is that request reaching its port (R48, R54; log 5): a DOWN port
delivers nothing, and the row changes nothing there (log 9); behind another request it is stored, or is an overrun (R16); where it is the head it is the admission's
judgement of that head, and in an empty buffer it becomes the head. -/
def Obligations.RequestRowsWaitTheirTurn : Prop :=
  ∀ (c : Instr) (p : Port) (r : Request) (s : State), requestOf c s = some (p, r) →
    ((s.port p).link = .down → exec c s = .next s) ∧
    ((s.port p).link ≠ .down →
      ((s.port p).ingress = [] →
        exec c s = exec (.admissionJudgement p) (s.setPort p { s.port p with ingress := [r] })) ∧
      ∀ h rest, (s.port p).ingress = h :: rest →
        (h = r → exec c s = exec (.admissionJudgement p) s) ∧
        (h ≠ r → (s.port p).ingress.length < 16 →
          exec c s = .next (s.setPort p { s.port p with ingress := (s.port p).ingress ++ [r] })) ∧
        (h ≠ r → 16 ≤ (s.port p).ingress.length →
          exec c s = .next
            (raise { kind := .creditOverrun, details := { port := some p, node := some r.src } }
              (s.setPort p { s.port p with discard := (s.port p).discard + 1 }))))

/-- The head `r` of port `p` passes the nine checks through window `w` (R51). -/
def Sys2Proof.Safety.PassesChecks (p : Port) (r : Request) (w : Fin 16) (s : State) : Prop :=
  WellFormedRequest (s.port p).identity r ∧ r.dst = (s.port p).identity ∧ Hits (s.window (dirOf p) w) r ∧
    r.address.toNat + r.length.toNat - 1 ≤ (s.window (dirOf p) w).limit.toNat ∧
    (s.window (dirOf p) w).state = .active ∧ Allows (s.window (dirOf p) w) r ∧ Binds p s (s.window (dirOf p) w) r ∧
    (s.port (forwardPort (dirOf p))).link = .up

/-- The outgoing address of a request through window `w` (R28). -/
def Sys2Proof.Safety.outgoing (w : Window) (r : Request) : Addr := r.address - w.base + w.translatedBase

/-- The cuts of a request through window `w`: offsets and lengths of its segments (R61, R76). -/
def Sys2Proof.Safety.cutsOf (w : Window) (r : Request) : List (Nat × Nat) :=
  cutSegments w.granule (outgoing w r).toNat r.length.toNat

/-- The packet of the segment with offset `c.1` and length `c.2` (R3): the window's target and space, the segment's translated address
and length, its share of the data. -/
def Sys2Proof.Safety.packetOf (kind : ReqKind) (tag : Tag) (w : Window) (r : Request) (c : Nat × Nat) : SegmentPacket where
  kind := kind
  target := w.target
  tag := tag
  space := w.space
  address := outgoing w r + BitVec.ofNat 40 c.1
  length := c.2
  data := (r.data.drop c.1).take c.2

/-- Packets `ks`, not none, at the tail of a port that is UP (R120, R126): the stall timer starts where the queue was empty and the
counter is 0. -/
def Sys2Proof.Safety.queued (x : PortState) (ks : List EgressPacket) : PortState :=
  { x with
    egress := x.egress ++ ks
    stallTimer := if x.egress = [] ∧ x.credits = 0 then x.tStall.ticks else x.stallTimer }

/-- The state after a forward by the entry `e` (R64, R65, R73, R76, R77). The buffer of a READ holds no byte yet (log 13). -/
def Sys2Proof.Safety.forwarded (p : Port) (r : Request) (w : Fin 16) (e : Fin 64) (s : State) : State :=
  let win := s.window (dirOf p) w
  let f := forwardPort (dirOf p)
  (((headTaken p true s).setWindow (dirOf p) w { win with inFlight := win.inFlight + 1, hits := win.hits + 1 }).setEntry e
    (some
      { state := .pending
        dir := dirOf p
        kind := match r.kind with
          | .rd => .read
          | .cw => .confirmed
          | .pw => .absorbed
        node := r.src
        tag := r.tag
        orphaned := false
        window := w
        target := win.target
        address := outgoing win r
        length := r.length.toNat
        segments := (cutsOf win r).map (fun c => { offset := c.1, length := c.2, state := .notSent })
        buffer := if r.kind = .rd then List.replicate r.length.toNat 0 else []
        deadline := none
        result := none
        tQuar := none
        quarantine := none })).setPort f
    (queued (s.port f) ((cutsOf win r).mapIdx (fun k c =>
      .segment e k (packetOf (if r.kind = .rd then .rd else .cw) (BitVec.ofNat 8 (4 * e.val + k)) win r c))))

/-- An RD, a CW or a PW through an ABSORB window that passes the checks is taken when its direction's reservation allows one entry more
(R62) and the forward port has room for all its segments (R60, R63): the lowest FREE entry is PENDING (R73), the window is charged and
counts the hit (R43, R44), the segments' packets stand in the egress queue in order. Otherwise the head waits. Nothing else changes
where no other head waits. -/
def Obligations.ForwardedRequestClaimsEntry : Prop :=
  ∀ (p : Port) (r : Request) (rest : List Request) (w : Fin 16) (s : State), Quiet s → OverlapLaw s →
    (s.port p).ingress = r :: rest → PassesChecks p r w s →
    (r.kind = .pw → (s.window (dirOf p) w).posting = .absorb) →
    (∀ e, s.inUse (dirOf p) + 1 + max (s.reserve (otherDir (dirOf p))) (s.inUse (otherDir (dirOf p))) ≤ 64 →
      (s.port (forwardPort (dirOf p))).egress.length + (cutsOf (s.window (dirOf p) w) r).length ≤ 16 →
      s.entry e = none → (∀ i, i < e → s.entry i ≠ none) →
      exec (.admissionJudgement p) s = .next (forwarded p r w e s)) ∧
    (64 < s.inUse (dirOf p) + 1 + max (s.reserve (otherDir (dirOf p))) (s.inUse (otherDir (dirOf p))) ∨
      16 < (s.port (forwardPort (dirOf p))).egress.length + (cutsOf (s.window (dirOf p) w) r).length →
      exec (.admissionJudgement p) s = .next (headWaiting p s))

/-- A PW through a PASS window is taken when the forward port has room for its segments (R66): they stand in its egress queue as
posted writes with tag 0, cut as R61 gives, each with its share of the data; the hit count rises, the in-flight count and the entries do
not change. Otherwise the head waits. -/
def Obligations.PassWriteForwarded : Prop :=
  ∀ (p : Port) (r : Request) (rest : List Request) (w : Fin 16) (s : State), Quiet s → OverlapLaw s →
    (s.port p).ingress = r :: rest → PassesChecks p r w s → r.kind = .pw → (s.window (dirOf p) w).posting = .pass →
    ((s.port (forwardPort (dirOf p))).egress.length + (cutsOf (s.window (dirOf p) w) r).length ≤ 16 →
      exec (.admissionJudgement p) s = .next
        (((headTaken p true s).setWindow (dirOf p) w
          { s.window (dirOf p) w with hits := (s.window (dirOf p) w).hits + 1 }).setPort (forwardPort (dirOf p))
            (queued (s.port (forwardPort (dirOf p)))
              ((cutsOf (s.window (dirOf p) w) r).map (fun c =>
                .pass r.src (dirOf p) w (packetOf .pw 0 (s.window (dirOf p) w) r c)))))) ∧
    (16 < (s.port (forwardPort (dirOf p))).egress.length + (cutsOf (s.window (dirOf p) w) r).length →
      exec (.admissionJudgement p) s = .next (headWaiting p s))

/-- A request of 1..256 bytes is cut into 1 to 3 segments that cover it without a gap (R76): one for granule NONE; for granule `n` as many
as the aligned blocks it touches (R61), the first from the request's first byte, each later one from the next multiple of `n`, none
across a multiple. At most two for 256. -/
def Obligations.SegmentCutCoversRequest : Prop :=
  ∀ (g : Granule) (a len : Nat), 1 ≤ len → len ≤ 256 →
    1 ≤ (cutSegments g a len).length ∧ (cutSegments g a len).length ≤ 3 ∧
    ((cutSegments g a len).map Prod.snd).sum = len ∧
    (cutSegments g a len)[0]?.map Prod.fst = some 0 ∧
    (∀ c ∈ cutSegments g a len, 1 ≤ c.2 ∧ c.2 ≤ 256) ∧
    (∀ i c d, (cutSegments g a len)[i]? = some c → (cutSegments g a len)[i + 1]? = some d → d.1 = c.1 + c.2) ∧
    (g = .whole → cutSegments g a len = [(0, len)]) ∧
    (∀ n, g.size = some n →
      (cutSegments g a len).length = (a + len - 1) / n - a / n + 1 ∧
      (n = 256 → (cutSegments g a len).length ≤ 2) ∧
      (∀ i d, (cutSegments g a len)[i + 1]? = some d → (a + d.1) % n = 0) ∧
      ∀ c ∈ cutSegments g a len, (a + c.1) / n = (a + c.1 + c.2 - 1) / n)

/-! ## Reading the bridge's objects -/

/-- An RD of a field is answered with the field's value, in its width, most significant byte first, and changes nothing but its take
(R175, R195, R24, R100, R138, R172), for a manager, or for anyone at IDENT (R177); any other requester is refused DENIED, with
MANAGEMENT_DENIED raised. An RD that selects no field is refused BAD_OBJECT, one of a length that is not the field's, or of the upper half of an
8-byte field, BAD_LENGTH, after the DENIED of a requester that is no manager (R174, R175, R179); at ACQUIRE an RD of another length
than 4 is refused BAD_LENGTH, at RELEASE every RD BAD_OBJECT (R139). IDENT's constants (R180), the views of what is absent (R183, R195,
R100), the codes of states and settings (Table 11-9), the packed fields (Table 11-11) and the counts are as given. -/
def Obligations.ManagementReadReturnsField : Prop :=
  (∀ (q : Requester) (f : Field) (rest : List Request) (s : State), Quiet s → (s.port q.port).link ≠ .down →
    (s.port q.port).completions.length < 16 →
    (s.port q.port).ingress = requestFor q .rd f.address (BitVec.ofNat 16 f.width) [] s :: rest →
    (f.open? = true ∨ s.manager q.node q.port = true →
      exec (.admissionJudgement q.port) s = .next
        (answered q .ok (bytesBE f.width (readField f (headTaken q.port true s))) (headTaken q.port true s))) ∧
    (f.open? = false → s.manager q.node q.port = false →
      exec (.admissionJudgement q.port) s = .next
        (answered q .denied []
          (raise
            { kind := .managementDenied
              details := { port := some q.port, node := some q.node, address := some f.address } }
            (headTaken q.port true s))))) ∧
  (∀ (q : Requester) (a : Addr) (n : BitVec 16) (rest : List Request) (s : State), Quiet s →
    (s.port q.port).link ≠ .down → (s.port q.port).completions.length < 16 →
    (s.port q.port).ingress = requestFor q .rd a n [] s :: rest → 1 ≤ n.toNat → n.toNat ≤ 256 →
    (selectLock a = none → selectField a = none →
      exec (.admissionJudgement q.port) s = .next (answered q .badObject [] (headTaken q.port true s))) ∧
    (∀ f whole, selectField a = some (f, whole) →
      (f.open? = false → s.manager q.node q.port = false →
        exec (.admissionJudgement q.port) s = .next
          (answered q .denied []
            (raise
              { kind := .managementDenied
                details := { port := some q.port, node := some q.node, address := some a } }
              (headTaken q.port true s)))) ∧
      (f.open? = true ∨ s.manager q.node q.port = true → whole = false ∨ n.toNat ≠ f.width →
        exec (.admissionJudgement q.port) s = .next (answered q .badLength [] (headTaken q.port true s)))) ∧
    (∀ k, a = (LockObject.acquire k).address → n.toNat ≠ 4 →
      exec (.admissionJudgement q.port) s = .next (answered q .badLength [] (headTaken q.port true s))) ∧
    ∀ k, a = (LockObject.release k).address →
      exec (.admissionJudgement q.port) s = .next (answered q .badObject [] (headTaken q.port true s))) ∧
  ∀ s : State,
    readField .vendorCode s = 0x0D3A ∧ readField .partCode s = 0x2240 ∧ readField .revision s = 1 ∧
    readField .msCount s = s.timebase.msCount.toNat ∧ readField .reset s = 0 ∧
    (∀ p, readField (.slotsInUse p) s = (s.port p).ingress.length ∧ readField (.creditsHeld p) s = (s.port p).credits ∧
      readField (.linkState p) s = (match (s.port p).link with
        | .down => 0
        | .up => 1
        | .stalled => 2) ∧
      readField (.identity p) s = (s.port p).identity.toNat ∧
      readField (.tStall p) s = (match (s.port p).tStall with
        | .off => 0
        | .us100 => 1
        | .ms1 => 2
        | .ms10 => 3) ∧
      readField (.admitted p) s = (s.port p).admitted.toNat ∧ readField (.refused p) s = (s.port p).refused.toNat ∧
      readField (.stray p) s = (s.port p).stray.toNat ∧ readField (.discard p) s = (s.port p).discard.toNat) ∧
    (∀ x, readField (.reserve x) s = s.reserve x ∧
      readField (.tcto x) s = (match s.tcto x with
        | .off => 0
        | .ms1 => 1
        | .ms8 => 2
        | .ms64 => 3
        | .ms512 => 4) ∧
      readField (.inUse x) s = (List.finRange 64).countP (fun e => match s.entry e with
        | some y => decide (y.dir = x)
        | none => false)) ∧
    (∀ i : Fin 4, readField (.manager i) s =
      (if s.managers[i].valid then 2 ^ 31 else 0) + (if s.managers[i].port = .u then 0 else 2 ^ 24) +
        s.managers[i].node.toNat) ∧
    readField .divider s = s.timebase.divider ∧
    readField .noticePort s = (match s.notices.targetPort with
      | none => 0
      | some .u => 1
      | some .d => 2) ∧
    readField .noticeNode s = s.notices.targetNode.toNat ∧ readField .nextSequence s = s.notices.nextSequence.toNat ∧
    readField .queueDepth s = s.notices.queue.length ∧ readField .droppedSince s = s.notices.droppedSince ∧
    readField .droppedTotal s = s.notices.droppedTotal ∧
    (∀ n, readField (.noticeClass n) s = (match s.noticeClass n with
      | .off => 0
      | .routine => 1
      | .urgent => 2)) ∧
    (∀ e x, s.entry e = some x →
      readField (.entryState e) s = (match x.state with
        | .pending => 1
        | .issued => 2
        | .done => 3
        | .quarantined => 4) ∧
      readField (.entryDirection e) s = (if x.dir = .down then 0 else 1) ∧
      readField (.entryKind e) s = (match x.kind with
        | .read => 1
        | .confirmed => 2
        | .absorbed => 3) ∧
      readField (.entryNode e) s = x.node.toNat ∧
      readField (.entryWindow e) s = (if x.dir = .down then 0 else 2 ^ 4) + x.window.val) ∧
    (∀ t w, readField (.command t w) s = 0 ∧
      readField (.windowState t w) s = (match (s.window t w).state with
        | .disabled => 0
        | .active => 1
        | .faulted => 2
        | .draining => 3) ∧
      readField (.attributes t w) s =
        (if (s.window t w).space = .memory then 0 else 1) + (if (s.window t w).readAllowed then 2 ^ 4 else 0) +
        (if (s.window t w).writeAllowed then 2 ^ 5 else 0) + (if (s.window t w).posting = .absorb then 0 else 2 ^ 8) +
        (match (s.window t w).granule with
          | .whole => 0
          | .g128 => 2 ^ 12
          | .g256 => 2 * 2 ^ 12) +
        (match (s.window t w).lockBinding with
          | none => 0
          | some k => 2 ^ 16 + k.toNat * 2 ^ 20) ∧
      readField (.base t w) s = (s.window t w).base.toNat ∧ readField (.limit t w) s = (s.window t w).limit.toNat ∧
      readField (.translatedBase t w) s = (s.window t w).translatedBase.toNat ∧
      readField (.target t w) s = (s.window t w).target.toNat ∧
      readField (.inFlight t w) s = (s.window t w).inFlight ∧ readField (.hitCount t w) s = (s.window t w).hits.toNat ∧
      ((s.window t w).fault = none → readField (.faultRecord t w) s = 0 ∧ readField (.faultAddress t w) s = 0) ∧
      ∀ f, (s.window t w).fault = some f →
        readField (.faultRecord t w) s = 2 ^ 31 + f.node.toNat * 2 ^ 16 + f.status.code.toNat * 2 ^ 8 + f.later ∧
        readField (.faultAddress t w) s = f.address.toNat) ∧
    (∀ e, s.entry e = none →
      readField (.entryState e) s = 0 ∧ readField (.entryDirection e) s = 0 ∧ readField (.entryKind e) s = 0 ∧
      readField (.entryNode e) s = 0 ∧ readField (.entryWindow e) s = 0) ∧
    ∀ k, readField (.breakField k) s = 0 ∧
      readField (.generation k) s = (s.lock k).generation.toNat ∧
      readField (.waiterCount k) s = (s.lock k).waiters.length ∧
      readField (.tLease k) s = (s.lock k).tLease.toNat ∧ readField (.tWait k) s = (s.lock k).tWait.toNat ∧
      ((s.lock k).holder = none → readField (.lockHolder k) s = 0) ∧
      ∀ n p, (s.lock k).holder = some (n, p) → readField (.lockHolder k) s =
        2 ^ 31 + (if (s.lock k).outbox = none then 0 else 2 ^ 30) + (if p = .u then 0 else 2 ^ 16) + n.toNat

/-- Addresses and fields agree (R174, Table 11-10): every field's address selects that field, every lock object's that object; an address
that selects a field whole is that field's address, and one that selects a part lies 4 bytes inside an 8-byte field. -/
def Obligations.FieldAddressesDecode : Prop :=
  (∀ f : Field, selectField f.address = some (f, true) ∧ selectLock f.address = none) ∧
  (∀ o : LockObject, selectLock o.address = some o ∧ selectField o.address = none) ∧
  (∀ (a : Addr) (f : Field), selectField a = some (f, true) → a = f.address) ∧
  (∀ (a : Addr) (f : Field), selectField a = some (f, false) → f.width = 8 ∧ a = f.address + 4) ∧
  (∀ (a : Addr) (o : LockObject), selectLock a = some o → a = o.address) ∧
  ∀ a : Addr, 2 ^ 24 ≤ a.toNat → selectField a = none ∧ selectLock a = none

/-- Every packet the bridge sends reads back by R194 as it was sent, with every field at every value (Tables 11-1 to 11-4): requests,
completions with and without detail, credits, notices; a notice is 32 bytes, its fields and its present details where Table 11-3 puts them. A packet
shorter than its kind's header is of undefined kind. -/
def Obligations.PacketsReadBackAsSent : Prop :=
  (∀ (k : ReqKind) (sp : Byte) (dst src : Node) (tag : Tag) (a : Addr) (len : BitVec 16) (data : List Byte),
    readPacket (requestBytes (reqCode k) sp dst src tag a len.toNat data) =
      .request { kind := k, dst := dst, src := src, tag := tag, space := sp, address := a, length := len, data := data }) ∧
  (∀ (st : Byte) (dst src : Node) (tag : Tag) (detail : Option Byte) (data : List Byte),
    readPacket (completionBytes st dst src tag detail data) =
      .completion { status := st, dst := dst, src := src, tag := tag, detail := detail, data := data }) ∧
  (∀ i : Byte, readPacket (creditBytes i.toNat) = .credit i) ∧
  (∀ (src : Node) (n : StampedNotice), n.dropped ≤ 65535 →
    readPacket (noticeBytes src n) = .notice n.destination ∧ (noticeBytes src n).length = 32 ∧
    fieldAt (noticeBytes src n) 1 1 = noticeCode n.record.kind ∧ nodeAt (noticeBytes src n) 4 = src ∧
    fieldAt (noticeBytes src n) 6 2 = n.sequence.toNat ∧ fieldAt (noticeBytes src n) 8 2 = n.dropped ∧
    fieldAt (noticeBytes src n) 10 1 = n.record.cls.code ∧
    fieldAt (noticeBytes src n) 12 4 = n.record.timestamp.toNat ∧
    fieldAt (noticeBytes src n) 16 2 = n.record.details.presence ∧
    (∀ p, n.record.details.port = some p → fieldAt (noticeBytes src n) 18 1 = portIndex p) ∧
    (∀ t w, n.record.details.window = some (t, w) → fieldAt (noticeBytes src n) 19 1 = dirCode t * 16 + w.val) ∧
    (∀ a, n.record.details.address = some a → fieldAt (noticeBytes src n) 20 5 = a.toNat) ∧
    (∀ m, n.record.details.node = some m → nodeAt (noticeBytes src n) 26 = m) ∧
    (∀ k, n.record.details.lock = some k → fieldAt (noticeBytes src n) 28 1 = k.val) ∧
    (∀ st, n.record.details.status = some st → byteAt (noticeBytes src n) 29 = st) ∧
    ∀ c, n.record.details.cause = some c → byteAt (noticeBytes src n) 30 = c.code) ∧
  ∀ (k : Byte) (rest : List Byte),
    (rest.length < 3 ∨ (k.toNat ≤ 3 ∧ rest.length < 15) ∨ (k.toNat = 8 ∧ rest.length < 11) ∨
      (k.toNat = 12 ∧ rest.length < 31)) →
    readPacket (k :: rest) = .undefinedKind

/-! ## Notices -/

/-- The notice unit judges a raise by the first case that holds (R160): class OFF or target NONE, discarded; 16 records queued, counted in
both dropped counts, saturating, the queue as it was; else a record of its kind, class, timestamp and details at the tail. -/
def Obligations.RaiseJudged : Prop :=
  ∀ (x : Raise) (s : State),
    (s.noticeClass x.kind = .off → raise x s = s) ∧
    (s.noticeClass x.kind ≠ .off → s.notices.targetPort = none → raise x s = s) ∧
    (s.noticeClass x.kind ≠ .off → s.notices.targetPort ≠ none → 16 ≤ s.notices.queue.length →
      raise x s = { s with notices := { s.notices with
        droppedSince := min (s.notices.droppedSince + 1) 65535
        droppedTotal := min (s.notices.droppedTotal + 1) (2 ^ 32 - 1) } }) ∧
    (s.noticeClass x.kind ≠ .off → s.notices.targetPort ≠ none → s.notices.queue.length < 16 →
      raise x s = { s with notices := { s.notices with
        queue := s.notices.queue ++
          [{ kind := x.kind, cls := s.noticeClass x.kind, timestamp := s.timebase.msCount, details := x.details }] } })

/-- A placement takes the oldest URGENT record, else the oldest record (R164), stamps it with the target node, the next sequence number and
the dropped-since-last count, which restarts (R166), and puts it at the tail of the target port's egress queue, when that port is UP and has
a free slot (R165). Else nothing is placed. Nothing else changes where no head waits. -/
def Obligations.NoticePlacementStampsOldestUrgent : Prop :=
  (∀ (s : State) (p : Port) (pre post : List NoticeRecord) (r : NoticeRecord), Quiet s →
    s.notices.targetPort = some p → (s.port p).link = .up → (s.port p).egress.length < 16 →
    s.notices.queue = pre ++ r :: post →
    ((r.cls = .urgent ∧ ∀ x ∈ pre, x.cls ≠ .urgent) ∨ (pre = [] ∧ ∀ x ∈ r :: post, x.cls ≠ .urgent)) →
    exec .noticePlacement s = .next
      (({ s with notices := { s.notices with
          queue := pre ++ post, nextSequence := s.notices.nextSequence + 1, droppedSince := 0 } }).setPort p
        (queued (s.port p)
          [.notice
            { destination := s.notices.targetNode, sequence := s.notices.nextSequence,
              dropped := s.notices.droppedSince, record := r }]))) ∧
  ∀ s : State,
    (s.notices.targetPort = none ∨ s.notices.queue = [] ∨
      ∃ p, s.notices.targetPort = some p ∧ ((s.port p).link ≠ .up ∨ 16 ≤ (s.port p).egress.length)) →
    exec .noticePlacement s = .next s

/-! ## Claims -/

/-- Lock `k` has no claim on port `p`'s completion queue (R103). -/
def Sys2Proof.Safety.NoLockClaim (p : Port) (s : State) (k : Fin 8) : Prop :=
  (∀ h, (s.lock k).outbox = some h → h.port ≠ p) ∧ ∀ h ∈ (s.lock k).expired, h.port ≠ p

/-- One slot of port `p` is free, no head waits, and the other port has nothing to give out. -/
def Sys2Proof.Safety.OneSlot (p : Port) (s : State) : Prop :=
  (s.port p).link ≠ .down ∧ (s.port p).completions.length = 15 ∧ nextClaim (otherPort p) s = none ∧
    s.portU.headWaits = false ∧ s.portD.headWaits = false

/-- A free slot goes to the highest-ranked claim (R104), and its owner acts at once. The outbox of the lowest lock that claims: an OK grant
starts the lease (R146, R141), after a LOCK_BROKEN one the lock is handed on (R142). Then that lock's oldest expiry answer for the port
(R151). With no lock claim, the first DONE entry of the port in done order: completion placed, charge released, QUARANTINED where a segment
timed out, else FREE (R90, R87). Where every free slot has been given out, as after every event, the three rows change nothing (log 7). -/
def Obligations.ClaimsTakeTheirSlot : Prop :=
  (∀ (p : Port) (k : Fin 8) (h : HeldAnswer) (s : State), OneSlot p s → (s.lock k).outbox = some h → h.port = p →
    (∀ j, j < k → NoLockClaim p s j) →
    (h.answer.status = .ok →
      exec (.outboxGrantPlacing k) s = .next
        ((s.setLock k { s.lock k with outbox := none, lease := leaseTicks (s.lock k).tLease }).setPort p
          { s.port p with completions := (s.port p).completions ++ [h.answer] })) ∧
    (h.answer.status = .lockBroken → (s.lock k).holder = none →
      exec (.outboxGrantPlacing k) s = .next
        (handedOn k
          ((s.setLock k { s.lock k with outbox := none }).setPort p
            { s.port p with completions := (s.port p).completions ++ [h.answer] })))) ∧
  (∀ (p : Port) (k : Fin 8) (h : HeldAnswer) (pre post : List HeldAnswer) (s : State), OneSlot p s →
    (∀ g, (s.lock k).outbox = some g → g.port ≠ p) → (s.lock k).expired = pre ++ h :: post → h.port = p →
    (∀ g ∈ pre, g.port ≠ p) → (∀ j, j < k → NoLockClaim p s j) →
    exec (.expiryAnswerPlacing k p) s = .next
      ((s.setLock k { s.lock k with expired := pre ++ post }).setPort p
        { s.port p with completions := (s.port p).completions ++ [h.answer] })) ∧
  (∀ (p : Port) (e : Fin 64) (x : Entry) (r : Result) (pre post : List (Fin 64)) (s : State), OneSlot p s →
    (∀ k, NoLockClaim p s k) → s.doneOrder = pre ++ e :: post → s.entry e = some x → x.state = .done →
    x.result = some r → originPort x.dir = p →
    (∀ i ∈ pre, ∀ y, s.entry i = some y → y.state = .done → originPort y.dir ≠ p) →
    exec (.doneEntryDelivery e) s = .next
      { (released x.dir x.window (s.setPort p { s.port p with
          completions := (s.port p).completions ++ [resultCompletion x r] })).setEntry e
            (if ∃ g ∈ x.segments, g.state = .failed .timeout then
              some { x with state := .quarantined, buffer := [], deadline := none, quarantine := x.tQuar }
            else none) with
        doneOrder := pre ++ post }) ∧
  ∀ (s : State) (e : Fin 64) (k : Fin 8) (p : Port), SlotLaw s →
    exec (.doneEntryDelivery e) s = .next s ∧ exec (.outboxGrantPlacing k) s = .next s ∧
    exec (.expiryAnswerPlacing k p) s = .next s

/-! ## Expiries -/

/-- Entry `x` at the expiry of its deadline `d` (R86, R87): open segments are FAILED with TIMEOUT, and tQUAR is the direction's tCTO, or the
deadline's own where that is OFF. -/
def Sys2Proof.Safety.timedOutEntry (s : State) (x : Entry) (d : Deadline) : Entry :=
  { x with
    segments := x.segments.map
      (fun g => if g.state = .notSent ∨ g.state = .sent then { g with state := .failed .timeout } else g)
    tQuar := if s.tcto x.dir = .off then d.setting.ticks else (s.tcto x.dir).ticks }

/-- Entry `e`'s packets withdrawn from its forward port, whose stall timer stops where none is left (R86, R121, R126). -/
def Sys2Proof.Safety.withdrawn (e : Fin 64) (x : Entry) (s : State) : State :=
  let p := forwardPort x.dir
  let rest := (s.port p).egress.filter (fun k => match k with
    | .segment i _ _ => decide (i ≠ e)
    | _ => true)
  s.setPort p { s.port p with egress := rest, stallTimer := if rest = [] then none else (s.port p).stallTimer }

/-- What the timeout of entry `x` raises (R86). -/
def Sys2Proof.Safety.timeoutNotice (x : Entry) : Raise where
  kind := .completionTimeout
  details :=
    { port := some (forwardPort x.dir), window := some (x.dir, x.window), address := some x.address,
      node := some x.target }

/-- The state after the steps 1 to 3 of R86: entry `e`'s packets withdrawn, and COMPLETION_TIMEOUT raised. -/
def Sys2Proof.Safety.timeoutStruck (e : Fin 64) (x : Entry) (s : State) : State := raise (timeoutNotice x) (withdrawn e x s)

/-- A deadline's expiry resolves its entry (R86) and delivers it into quarantine (R87): READ or CONFIRMED with a completion where the origin
port has a slot, DONE where it has none, without one where it is orphaned; ABSORBED by its window's fault (R40), whose raise and the timeout's come
in either order, which a draw of the free order picks (R161; log 3). The row acts on a running deadline whatever its count (log 2). No deadline, no effect. A quarantine's expiry frees its entry (R87). -/
def Obligations.DeadlineExpiryQuarantines : Prop :=
  (∀ (e : Fin 64) (x : Entry) (d : Deadline) (s : State), Quiet s → EntryLaw s → DoneLaw s → s.entry e = some x →
    x.deadline = some d →
    ∃ f, ResultOf (timedOutEntry s x d).segments (.failed f) ∧
      (x.kind ≠ .absorbed → x.orphaned = false → slotFree (originPort x.dir) s = true →
        exec (.completionDeadlineExpiry e) s = .next
          ((released x.dir x.window
            ((timeoutStruck e x s).setPort (originPort x.dir) { s.port (originPort x.dir) with
              completions := (s.port (originPort x.dir)).completions ++
                [resultCompletion (timedOutEntry s x d) (.failed f)] })).setEntry e
            (some { timedOutEntry s x d with
              state := .quarantined, result := some (.failed f), deadline := none, buffer := []
              quarantine := (timedOutEntry s x d).tQuar }))) ∧
      (x.kind ≠ .absorbed → x.orphaned = false → slotFree (originPort x.dir) s = false →
        exec (.completionDeadlineExpiry e) s = .next
          { (timeoutStruck e x s).setEntry e
              (some { timedOutEntry s x d with state := .done, result := some (.failed f), deadline := none }) with
            doneOrder := s.doneOrder ++ [e] }) ∧
      (x.kind ≠ .absorbed → x.orphaned = true →
        exec (.completionDeadlineExpiry e) s = .next
          ((released x.dir x.window (timeoutStruck e x s)).setEntry e
            (some { timedOutEntry s x d with
              state := .quarantined, result := some (.failed f), deadline := none, buffer := []
              quarantine := (timedOutEntry s x d).tQuar }))) ∧
      (x.kind = .absorbed → (s.window x.dir x.window).state ≠ .disabled →
        ∃ rs : List Raise, rs.Perm (timeoutNotice x :: writeFailed x (timedOutEntry s x d).segments) ∧
          exec (.completionDeadlineExpiry e) s = .next
            (raiseAll rs
              { (released x.dir x.window
                  ((withdrawn e x s).setWindow x.dir x.window
                    (faulted x f.status (s.window x.dir x.window)))).setEntry e
                  (some { timedOutEntry s x d with
                    state := .quarantined, result := some (.failed f), deadline := none, buffer := []
                    quarantine := (timedOutEntry s x d).tQuar }) with
                freeNext := s.freeNext + 1 }))) ∧
  (∀ (e : Fin 64) (s : State), AtRest s → (∀ x, s.entry e = some x → x.deadline = none) →
    exec (.completionDeadlineExpiry e) s = .next s) ∧
  (∀ (e : Fin 64) (x : Entry) (s : State), Quiet s → s.entry e = some x → x.state = .quarantined →
    x.quarantine ≠ none → exec (.quarantineExpiry e) s = .next (s.setEntry e none)) ∧
  ∀ (e : Fin 64) (s : State), AtRest s → (∀ x, s.entry e = some x → x.state ≠ .quarantined) →
    exec (.quarantineExpiry e) s = .next s

/-- A stall timer's expiry makes its port STALLED and flushes its egress queue (R127), completions untouched. An entry with unsent segments
there fails them with PORT_STALLED (R94): with a SENT segment it is ISSUED and waits on; else it takes its result, ABSORBED or orphaned it is
freed, READ or CONFIRMED it is DONE, or freed where its origin port gives it a slot. Other entries are unchanged. An ABSORBED one that is freed
faults its ACTIVE window (R40), with its own address and node and PORT_STALLED where no segment of it had failed before and no other one
fails at that window. The notice unit counts the flushed notices (R167) and judges the raises in some order that keeps the queue's own: one
for each PASS segment, then PORT_STALLED (R127); ABSORBED_WRITE_FAILED for each ABSORBED entry that fails (R161). A queue without segments
gives its own raises only; one draw of the free order is used up (log 3). The row acts on a running timer whatever its count (log 2). No timer, no effect. Stated where no head waits. -/
def Obligations.StallExpiryFlushesQueue : Prop :=
  (∀ (p : Port) (s : State), Quiet s → PortLaw s → EntryLaw s → EgressLaw s → (s.port p).stallTimer ≠ none →
    ∃ t, exec (.stallTimerExpiry p) s = .next t ∧
      t.port p = { s.port p with link := .stalled, egress := [], stallTimer := none } ∧
      (∃ cs, t.port (otherPort p) = { s.port (otherPort p) with
        completions := (s.port (otherPort p)).completions ++ cs }) ∧
      (∀ e x, s.entry e = some x → forwardPort x.dir = p → x.state = .pending →
        ((∃ g ∈ x.segments, g.state = .sent) →
          t.entry e = some { x with state := .issued, segments := stalledSegments x.segments }) ∧
        ((∀ g ∈ x.segments, g.state ≠ .sent) →
          ((x.kind = .absorbed ∨ x.orphaned = true) → t.entry e = none) ∧
          (x.kind ≠ .absorbed → x.orphaned = false →
            t.entry e = some { x with
              state := .done, segments := stalledSegments x.segments, deadline := none
              result := some ({ x with segments := stalledSegments x.segments }).formResult } ∨
            t.entry e = none ∧ slotFree (originPort x.dir) s = true))) ∧
      (∀ e x, s.entry e = some x → ¬ (forwardPort x.dir = p ∧ x.state = .pending) → t.entry e = some x) ∧
      (∀ e, s.entry e = none → t.entry e = none) ∧
      (∀ e x, s.entry e = some x → forwardPort x.dir = p → x.state = .pending → x.kind = .absorbed →
        (∀ g ∈ x.segments, g.state ≠ .sent) → (s.window x.dir x.window).state = .active →
        (t.window x.dir x.window).state = .faulted ∧ (t.window x.dir x.window).fault.isSome = true ∧
        ((∀ g ∈ x.segments, g.state = .notSent ∨ g.state = .ok) →
          (∀ i y, i ≠ e → s.entry i = some y → y.dir = x.dir → y.window = x.window → y.state = .pending →
            y.kind = .absorbed → ∃ g ∈ y.segments, g.state = .sent) →
          (t.window x.dir x.window).fault =
            some { address := x.address, node := x.node, status := .portStalled, later := 0 })) ∧
      (NoticeLaw s → ChargeLaw s → ∃ rs : List Raise,
        rs.Perm (flushLosses .portStalled .portStalled p (s.port p).egress ++ stalledWrites p s) ∧
        (flushLosses .portStalled .portStalled p (s.port p).egress).Sublist rs ∧
        t.notices = noticesAfter (s.port p).egress rs s) ∧
      t.locks = s.locks ∧ t.managers = s.managers ∧ t.timebase = s.timebase) ∧
  (∀ (p : Port) (s : State), Quiet s → PortLaw s → NoticeLaw s → (s.port p).stallTimer ≠ none →
    (∀ e n q, EgressPacket.segment e n q ∉ (s.port p).egress) →
    exec (.stallTimerExpiry p) s = .next
      (raiseAll (flushLosses .portStalled .portStalled p (s.port p).egress)
        { s.setPort p { s.port p with link := .stalled, egress := [], stallTimer := none } with
          notices := lost s.notices (flushedLosses (s.port p).egress) (noticeCount (s.port p).egress)
          freeNext := s.freeNext + 1 })) ∧
  ∀ (p : Port) (s : State), AtRest s → (s.port p).stallTimer = none → exec (.stallTimerExpiry p) s = .next s

/-- A lease's expiry ends the hold, raises LOCK_EXPIRED with cause LEASE, and hands the lock on (R148, R142). The row acts
on a running lease whatever its count (log 2). No running lease, no effect. -/
def Obligations.LeaseExpiryEndsHold : Prop :=
  ∀ (k : Fin 8) (s : State),
    (∀ n node port, Quiet s → (s.lock k).lease = some n → (s.lock k).holder = some (node, port) →
      (s.lock k).outbox = none →
      exec (.leaseExpiry k) s = .next
        (handedOn k
          (raise
            { kind := .lockExpired
              details := { lock := some k, node := some node, port := some port, cause := some .lease } }
            (s.setLock k { s.lock k with holder := none, lease := none })))) ∧
    (AtRest s → (s.lock k).lease = none → exec (.leaseExpiry k) s = .next s)

/-- A wait's expiry removes its waiter from wherever it stands (R150): its TIMEOUT answer takes a free slot of its port, or joins the lock's
expiry answers (R151). No notice is raised. The row acts on a running wait whatever its count (log 2). No running wait of that pair, no
effect. -/
def Obligations.WaitExpiryAnswersTimeout : Prop :=
  ∀ (k : Fin 8) (w : Waiter) (pre post : List Waiter) (s : State),
    (Quiet s → (s.lock k).waiters = pre ++ w :: post → w.deadline ≠ none →
      (∀ v ∈ pre, (v.node, v.port) ≠ (w.node, w.port)) →
      (slotFree w.port s = true →
        exec (.waitExpiry k w.node w.port) s = .next
          (answered { port := w.port, node := w.node, tag := w.tag } .timeout []
            (s.setLock k { s.lock k with waiters := pre ++ post }))) ∧
      (slotFree w.port s = false →
        exec (.waitExpiry k w.node w.port) s = .next
          (s.setLock k { s.lock k with
            waiters := pre ++ post
            expired := (s.lock k).expired ++
              [{ port := w.port
                 answer := { node := w.node, tag := w.tag, status := .timeout, detail := none, data := [] } }] }))) ∧
    (AtRest s → (∀ v ∈ (s.lock k).waiters, (v.node, v.port) = (w.node, w.port) → v.deadline = none) →
      exec (.waitExpiry k w.node w.port) s = .next s)

/-! ## Locks -/

/-- ACQUIRE by the cases of Table 7-2 (R140): granted under the next generation, its lease started (R141, R136); renewed (R143); DUPLICATE;
BUSY; appended without an answer (R144). -/
def Obligations.AcquireOutcomes : Prop :=
  ∀ (q : Requester) (k : Fin 8) (s : State), CanPresent q s →
    ((s.lock k).holder = none → (s.lock k).outbox = none → (s.lock k).waiters = [] →
      exec (.acquire q k) s = .next
        (answered q .ok (bytesBE 4 ((s.lock k).generation + 1).toNat)
          ((taken q s).setLock k { s.lock k with
            generation := (s.lock k).generation + 1
            holder := some (q.node, q.port)
            lease := leaseTicks (s.lock k).tLease }))) ∧
    ((s.lock k).holder = some (q.node, q.port) →
      exec (.acquire q k) s = .next
        (answered q .ok (bytesBE 4 (s.lock k).generation.toNat)
          ((taken q s).setLock k { s.lock k with lease := leaseTicks (s.lock k).tLease }))) ∧
    ((s.lock k).holder ≠ some (q.node, q.port) →
      ((∃ w ∈ (s.lock k).waiters, (w.node, w.port) = (q.node, q.port)) →
        exec (.acquire q k) s = .next (answered q .duplicate [] (taken q s))) ∧
      ((∀ w ∈ (s.lock k).waiters, (w.node, w.port) ≠ (q.node, q.port)) →
        (4 ≤ (s.lock k).waiters.length →
          exec (.acquire q k) s = .next (answered q .busy [] (taken q s))) ∧
        ((s.lock k).waiters.length < 4 →
          (s.lock k).holder ≠ none ∨ (s.lock k).outbox ≠ none ∨ (s.lock k).waiters ≠ [] →
          exec (.acquire q k) s = .next
            ((taken q s).setLock k { s.lock k with
              waiters := (s.lock k).waiters ++
                [{ node := q.node, port := q.port, tag := q.tag, deadline := leaseTicks (s.lock k).tWait }] }))))

/-- RELEASE by the holder with the lock's generation ends the hold, is answered OK, and hands the lock on behind that answer; any other is
answered NOT_HOLDER and changes nothing (R145, R196). -/
def Obligations.ReleaseOutcomes : Prop :=
  ∀ (q : Requester) (k : Fin 8) (g : Word32) (s : State), CanPresent q s → LockLaw s →
    ((s.lock k).holder = some (q.node, q.port) → g = (s.lock k).generation →
      exec (.release q k g) s = .next
        (handedOn k (answered q .ok []
          ((taken q s).setLock k { s.lock k with holder := none, lease := none })))) ∧
    ((s.lock k).holder ≠ some (q.node, q.port) ∨ g ≠ (s.lock k).generation →
      exec (.release q k g) s = .next (answered q .notHolder [] (taken q s)))

/-- BREAK is answered OK in every case (R147): a placed holder is removed, LOCK_EXPIRED raised with cause BROKEN, the lock handed on; with
its grant in the outbox the grant becomes LOCK_BROKEN without data and stays (R110); with no holder nothing changes. -/
def Obligations.BreakOutcomes : Prop :=
  ∀ (q : Requester) (k : Fin 8) (s : State), ManagerCanPresent q s →
    (∀ node port, (s.lock k).holder = some (node, port) →
      ((s.lock k).outbox = none →
        exec (.breakLock q k) s = .next
          (handedOn k (answered q .ok []
            (raise
              { kind := .lockExpired
                details := { lock := some k, node := some node, port := some port, cause := some .broken } }
              ((taken q s).setLock k { s.lock k with holder := none, lease := none }))))) ∧
      ∀ h, (s.lock k).outbox = some h →
        exec (.breakLock q k) s = .next
          (answered q .ok []
            (raise
              { kind := .lockExpired
                details := { lock := some k, node := some node, port := some port, cause := some .broken } }
              ((taken q s).setLock k { s.lock k with
                holder := none, lease := none
                outbox := some { h with answer := { h.answer with status := .lockBroken, data := [] } } })))) ∧
    ((s.lock k).holder = none → exec (.breakLock q k) s = .next (answered q .ok [] (taken q s)))

/-! ## Windows -/

/-- ENABLE check 1 of a window (R31). -/
def Sys2Proof.Safety.AddressesAligned (w : Window) : Prop :=
  w.base.toNat % 4096 = 0 ∧ (w.limit.toNat + 1) % 4096 = 0 ∧ w.base.toNat + 4095 ≤ w.limit.toNat ∧
    w.translatedBase.toNat % 4096 = 0

/-- ENABLE check 2 of a window (R31). -/
def Sys2Proof.Safety.TranslationFits (w : Window) : Prop :=
  w.translatedBase.toNat + (w.limit.toNat - w.base.toNat) ≤ 0xFFFFFFFFFF

/-- ENABLE's checks in the order of Table 2-5, the outcome of the first that fails (R30 to R33): outside DISABLED WRONG_STATE; address fields,
translated fit, target node and lock binding BAD_VALUE; overlap OVERLAP. All passed, the window is ACTIVE without a fault record (R34). A
refusal changes nothing. -/
def Obligations.EnableOutcomes : Prop :=
  ∀ (q : Requester) (t : Dir) (w : Fin 16) (s : State), ManagerCanPresent q s →
    ((s.window t w).state ≠ .disabled → exec (.enable q t w) s = .next (answered q .wrongState [] (taken q s))) ∧
    ((s.window t w).state = .disabled →
      (¬ AddressesAligned (s.window t w) ∨ ¬ TranslationFits (s.window t w) ∨
        (s.window t w).target = (s.port (forwardPort t)).identity ∨
        (∃ k, (s.window t w).lockBinding = some k ∧ 8 ≤ k.toNat) →
        exec (.enable q t w) s = .next (answered q .badValue [] (taken q s))) ∧
      (AddressesAligned (s.window t w) → TranslationFits (s.window t w) →
        (s.window t w).target ≠ (s.port (forwardPort t)).identity →
        (∀ k, (s.window t w).lockBinding = some k → k.toNat < 8) →
        ((∃ v, v ≠ w ∧ (s.window t v).state ≠ .disabled ∧ (s.window t v).space = (s.window t w).space ∧
            (s.window t w).base.toNat ≤ (s.window t v).limit.toNat ∧
            (s.window t v).base.toNat ≤ (s.window t w).limit.toNat) →
          exec (.enable q t w) s = .next (answered q .overlap [] (taken q s))) ∧
        ((∀ v, v ≠ w → (s.window t v).state ≠ .disabled → (s.window t v).space = (s.window t w).space →
            (s.window t v).limit.toNat < (s.window t w).base.toNat ∨
            (s.window t w).limit.toNat < (s.window t v).base.toNat) →
          exec (.enable q t w) s = .next
            (answered q .ok []
              ((taken q s).setWindow t w { s.window t w with state := .active, fault := none })))))

/-- ENABLE checks 1 and 2 (R31): what passes them, that a limit of 0xFF_FFFF_FFFF meets the second condition, that the last byte of a window
that passes translates within 40 bits, and that a window that fails either is refused BAD_VALUE, DISABLED with its fields as written. -/
def Obligations.EnableAddressChecks : Prop :=
  (∀ w : Window, (w.aligned = true ↔ AddressesAligned w) ∧ (w.fits = true ↔ TranslationFits w)) ∧
  (∀ w : Window, w.limit = 0xFFFFFFFFFF → (w.limit.toNat + 1) % 4096 = 0 ∧ w.limit.toNat + 1 = 2 ^ 40) ∧
  (∀ w : Window, AddressesAligned w → TranslationFits w →
    (w.translate w.limit).toNat = w.translatedBase.toNat + (w.limit.toNat - w.base.toNat)) ∧
  ∀ (q : Requester) (t : Dir) (w : Fin 16) (s : State), ManagerCanPresent q s → (s.window t w).state = .disabled →
    ¬ (AddressesAligned (s.window t w) ∧ TranslationFits (s.window t w)) →
    ∃ u, exec (.enable q t w) s = .next u ∧ u = answered q .badValue [] (taken q s) ∧ u.window t w = s.window t w

/-- DISABLE is answered OK in every state (R36): ACTIVE or FAULTED it becomes DISABLED with no charge and DRAINING with one, its record kept.
CLEAR_FAULT is answered OK in every state (R39): the record is removed, and FAULTED becomes ACTIVE. -/
def Obligations.DisableAndClearFaultOutcomes : Prop :=
  ∀ (q : Requester) (t : Dir) (w : Fin 16) (s : State), ManagerCanPresent q s →
    (((s.window t w).state = .active ∨ (s.window t w).state = .faulted) → (s.window t w).inFlight = 0 →
      exec (.disable q t w) s = .next
        (answered q .ok [] ((taken q s).setWindow t w { s.window t w with state := .disabled }))) ∧
    (((s.window t w).state = .active ∨ (s.window t w).state = .faulted) → 0 < (s.window t w).inFlight →
      exec (.disable q t w) s = .next
        (answered q .ok [] ((taken q s).setWindow t w { s.window t w with state := .draining }))) ∧
    (((s.window t w).state = .disabled ∨ (s.window t w).state = .draining) →
      exec (.disable q t w) s = .next (answered q .ok [] (taken q s))) ∧
    ((s.window t w).state = .faulted →
      exec (.clearFault q t w) s = .next
        (answered q .ok [] ((taken q s).setWindow t w { s.window t w with state := .active, fault := none }))) ∧
    ((s.window t w).state ≠ .faulted →
      exec (.clearFault q t w) s = .next
        (answered q .ok [] ((taken q s).setWindow t w { s.window t w with fault := none })))

/-- The window with a written configuration field, where the value has an encoding (R24, R195, Table 11-11): attributes with space 0 or 1 and
granule 0 to 2, addresses below 2^40, a node up to 1023. -/
def Sys2Proof.Safety.withField (w : Window) : WindowFieldWrite → Option Window
  | .attributes v =>
    if 2 ≤ v.toNat % 4 ∨ v.toNat / 4096 % 4 = 3 then none
    else some { w with
      space := if v.toNat % 4 = 0 then .memory else .io
      readAllowed := v.getLsbD 4
      writeAllowed := v.getLsbD 5
      posting := if v.getLsbD 8 then .pass else .absorb
      granule := if v.toNat / 4096 % 4 = 0 then .whole else if v.toNat / 4096 % 4 = 1 then .g128 else .g256
      lockBinding := if v.getLsbD 16 then some (v.extractLsb' 20 4) else none }
  | .base v => if v.toNat < 2 ^ 40 then some { w with base := v.setWidth 40 } else none
  | .limit v => if v.toNat < 2 ^ 40 then some { w with limit := v.setWidth 40 } else none
  | .translatedBase v => if v.toNat < 2 ^ 40 then some { w with translatedBase := v.setWidth 40 } else none
  | .target v => if v.toNat ≤ 1023 then some { w with target := v.setWidth 10 } else none

/-- A configuration write is stored while the window is DISABLED and its value has an encoding (R24, R195), whatever ENABLE will say of it;
without an encoding it is refused BAD_VALUE, in other states WRONG_STATE, and the field keeps its value. The form is judged first (log 10). A
write of the hit count clears it in every state (R44). -/
def Obligations.WindowFieldWriteOutcomes : Prop :=
  ∀ (q : Requester) (t : Dir) (w : Fin 16) (s : State), ManagerCanPresent q s →
    (∀ f, withField (s.window t w) f = none →
      exec (.windowFieldWrite q t w f) s = .next (answered q .badValue [] (taken q s))) ∧
    (∀ f x, withField (s.window t w) f = some x →
      ((s.window t w).state ≠ .disabled →
        exec (.windowFieldWrite q t w f) s = .next (answered q .wrongState [] (taken q s))) ∧
      ((s.window t w).state = .disabled →
        exec (.windowFieldWrite q t w f) s = .next (answered q .ok [] ((taken q s).setWindow t w x)))) ∧
    ∀ v, exec (.hitCountClear q t w v) s = .next
      (answered q .ok [] ((taken q s).setWindow t w { s.window t w with hits := 0 }))

/-! ## Ports and settings -/

/-- An identity write by the checks of R8 in order: above 1023 BAD_VALUE; an entry not FREE, which uses both ports, WRONG_STATE; the target of a
window in force that forwards at the port BAD_VALUE; else the identity is replaced and the write answered OK. -/
def Obligations.IdentityWriteOutcomes : Prop :=
  ∀ (q : Requester) (p : Port) (v : Word32) (s : State), ManagerCanPresent q s →
    (1023 < v.toNat → exec (.nodeIdentityWrite q p v) s = .next (answered q .badValue [] (taken q s))) ∧
    (v.toNat ≤ 1023 →
      ((∃ e x, s.entry e = some x ∧ (originPort x.dir = p ∨ forwardPort x.dir = p)) →
        exec (.nodeIdentityWrite q p v) s = .next (answered q .wrongState [] (taken q s))) ∧
      ((∀ e, s.entry e = none) →
        (∀ t, forwardPort t = p →
          (∃ w, (s.window t w).state ≠ .disabled ∧ (s.window t w).target.toNat = v.toNat) →
          exec (.nodeIdentityWrite q p v) s = .next (answered q .badValue [] (taken q s))) ∧
        ((∀ t w, forwardPort t = p → (s.window t w).state ≠ .disabled → (s.window t w).target.toNat ≠ v.toNat) →
          exec (.nodeIdentityWrite q p v) s = .next
            (answered q .ok []
              ((taken q s).setPort p { (taken q s).port p with identity := v.setWidth 10 })))))

/-- A tSTALL write (R125): a value that is no code is refused BAD_VALUE; else it is stored, and where the port is UP with packets queued and
no credit its stall timer starts afresh with the new value, or stops for OFF. -/
def Obligations.TstallWriteOutcomes : Prop :=
  ∀ (q : Requester) (p : Port) (v : Word32) (s : State), ManagerCanPresent q s → PortTimer (s.port p) →
    (3 < v.toNat → exec (.tstallWrite q p v) s = .next (answered q .badValue [] (taken q s))) ∧
    (∀ t, (v.toNat, t) ∈ [(0, TStall.off), (1, .us100), (2, .ms1), (3, .ms10)] →
      (¬ ((s.port p).link = .up ∧ (s.port p).egress ≠ [] ∧ (s.port p).credits = 0) →
        exec (.tstallWrite q p v) s = .next
          (answered q .ok [] ((taken q s).setPort p { (taken q s).port p with tStall := t }))) ∧
      ((s.port p).link = .up → (s.port p).egress ≠ [] → (s.port p).credits = 0 →
        ∀ n, (t, n) ∈ [(TStall.off, none), (.us100, some 100), (.ms1, some 1000), (.ms10, some 10000)] →
        exec (.tstallWrite q p v) s = .next
          (answered q .ok []
            ((taken q s).setPort p { (taken q s).port p with tStall := t, stallTimer := n }))))

/-- Writes of the reserves (R74), of tCTO (R75) and of a lock's tLEASE and tWAIT (R137): refused BAD_VALUE outside the range, and for a reserve
where a reservation inequality would break for the counts in use; else stored and answered OK, and nothing else changes. -/
def Obligations.TableAndLockSettingWrites : Prop :=
  ∀ (q : Requester) (v : Word32) (s : State), ManagerCanPresent q s →
    (∀ y,
      (32 < v.toNat ∨ 64 < v.toNat + s.reserve (otherDir y) ∨ 64 < s.inUse (otherDir y) + max v.toNat (s.inUse y) →
        exec (.reserveWrite q y v) s = .next (answered q .badValue [] (taken q s))) ∧
      (v.toNat ≤ 32 → v.toNat + s.reserve (otherDir y) ≤ 64 → s.inUse (otherDir y) + max v.toNat (s.inUse y) ≤ 64 →
        exec (.reserveWrite q y v) s = .next (answered q .ok [] ((taken q s).setReserve y v.toNat)))) ∧
    (∀ x,
      (4 < v.toNat → exec (.tctoWrite q x v) s = .next (answered q .badValue [] (taken q s))) ∧
      ∀ t, (v.toNat, t) ∈ [(0, TCto.off), (1, .ms1), (2, .ms8), (3, .ms64), (4, .ms512)] →
        exec (.tctoWrite q x v) s = .next (answered q .ok [] ((taken q s).setTcto x t))) ∧
    ∀ k,
      (65535 < v.toNat →
        exec (.tleaseWrite q k v) s = .next (answered q .badValue [] (taken q s)) ∧
        exec (.twaitWrite q k v) s = .next (answered q .badValue [] (taken q s))) ∧
      (v.toNat ≤ 65535 →
        exec (.tleaseWrite q k v) s = .next
          (answered q .ok [] ((taken q s).setLock k { s.lock k with tLease := v.setWidth 16 })) ∧
        exec (.twaitWrite q k v) s = .next
          (answered q .ok [] ((taken q s).setLock k { s.lock k with tWait := v.setWidth 16 })))

/-- Writes of a notice class (R162), of the target port and of the target node (R163): refused BAD_VALUE without an encoding, else stored and
answered OK. A target port of NONE drains the queue into both dropped counts; between U and D the records stay; the value already held
changes nothing. -/
def Obligations.NoticeSettingWrites : Prop :=
  ∀ (q : Requester) (v : Word32) (s : State), ManagerCanPresent q s →
    (2 < v.toNat →
      (∀ n, exec (.classWrite q n v) s = .next (answered q .badValue [] (taken q s))) ∧
      exec (.targetPortWrite q v) s = .next (answered q .badValue [] (taken q s))) ∧
    (∀ n c, (v.toNat, c) ∈ [(0, NoticeClass.off), (1, .routine), (2, .urgent)] →
      exec (.classWrite q n v) s = .next
        (answered q .ok []
          { taken q s with
            notices := { s.notices with classes := s.notices.classes.set (noticeIndex n) c } })) ∧
    (v.toNat = 0 →
      (s.notices.targetPort = none →
        exec (.targetPortWrite q v) s = .next (answered q .ok [] (taken q s))) ∧
      (s.notices.targetPort ≠ none →
        exec (.targetPortWrite q v) s = .next
          (answered q .ok []
            { taken q s with
              notices := { lost s.notices s.notices.queue.length s.notices.queue.length with
                queue := [], targetPort := none } }))) ∧
    (∀ p, (v.toNat, p) ∈ [(1, Port.u), (2, .d)] →
      exec (.targetPortWrite q v) s = .next
        (answered q .ok [] { taken q s with notices := { s.notices with targetPort := some p } })) ∧
    (1023 < v.toNat → exec (.targetNodeWrite q v) s = .next (answered q .badValue [] (taken q s))) ∧
    (v.toNat ≤ 1023 →
      exec (.targetNodeWrite q v) s = .next
        (answered q .ok [] { taken q s with notices := { s.notices with targetNode := v.setWidth 10 } }))

/-- A manager entry write (R178, R195): port code 2 or 3, or a node above 1023, is refused BAD_VALUE; else valid, node and port are stored,
reserved bits ignored. A divider write (R187): outside 25..200 BAD_VALUE; else stored, and the count toward the next tick starts again. -/
def Obligations.ManagerAndDividerWrites : Prop :=
  ∀ (q : Requester) (v : Word32) (s : State), ManagerCanPresent q s →
    (∀ i : Fin 4,
      (2 ≤ v.toNat / 2 ^ 24 % 4 ∨ 1023 < v.toNat % 2 ^ 16 →
        exec (.managerEntryWrite q i v) s = .next (answered q .badValue [] (taken q s))) ∧
      (v.toNat / 2 ^ 24 % 4 < 2 → v.toNat % 2 ^ 16 ≤ 1023 →
        exec (.managerEntryWrite q i v) s = .next
          (answered q .ok []
            { taken q s with
              managers := s.managers.set i
                { valid := v.getLsbD 31, node := v.setWidth 10, port := if v.getLsbD 24 then .d else .u } }))) ∧
    (v.toNat < 25 ∨ 200 < v.toNat →
      exec (.dividerWrite q v) s = .next (answered q .badValue [] (taken q s))) ∧
    (25 ≤ v.toNat → v.toNat ≤ 200 →
      exec (.dividerWrite q v) s = .next
        (answered q .ok []
          { taken q s with timebase := { s.timebase with divider := v.toNat, refclk := 0 } }))

/-- A port after a soft reset (R18, R113, R134): buffers empty, the removed requests' credits owed, the stall timer stopped; the rest kept. -/
def Sys2Proof.Safety.portSoftReset (x : PortState) : PortState :=
  { x with
    ingress := [], headWaits := false, creditsOwed := min 16 (x.creditsOwed + x.ingress.length), completions := [],
    egress := [], stallTimer := none }

/-- A manager's write of 1 to RESET (R190, R191, R192): at one event the buffers and queues are empty, every entry FREE, every in-flight count 0
and every drain ended (R46), every lock free without waiters or answers, its generation and settings kept (R157), queued and placed notices
counted as lost (R170, R167); everything else is kept, nothing is raised, and the one answer is OK to the requester. -/
def Obligations.SoftResetOutcome : Prop :=
  ∀ (q : Requester) (s : State), ManagerCanPresent q s →
    ∃ u, exec (.softReset q) s = .next (answered q .ok [] u) ∧
      (∀ p, u.port p = portSoftReset ((taken q s).port p)) ∧
      (∀ t w, u.window t w = { s.window t w with
        inFlight := 0
        state := if (s.window t w).state = .draining then .disabled else (s.window t w).state }) ∧
      (∀ e, u.entry e = none) ∧ u.doneOrder = [] ∧
      (∀ k, u.lock k = { s.lock k with holder := none, lease := none, waiters := [], outbox := none, expired := [] }) ∧
      u.notices = { lost s.notices
          (s.notices.queue.length + flushedLosses (s.portU.egress ++ s.portD.egress))
          (s.notices.queue.length + noticeCount (s.portU.egress ++ s.portD.egress)) with
        queue := [] } ∧
      u = { s with
        portU := u.portU, portD := u.portD, down := u.down, up := u.up, entries := u.entries, doneOrder := []
        locks := u.locks, notices := u.notices }

/-- A management CW is judged in the order of Table 9-2 (R179, R174, R175, R177): no field BAD_OBJECT; not a manager and not IDENT, DENIED with
MANAGEMENT_DENIED raised; a length that is not the field's, or an access inside a field, BAD_LENGTH; a field that cannot be written READ_ONLY.
BREAK and RESET take no value but 1, the command field none but 1 to 3 (R147, R190, R29). At a lock object the lock unit judges the form
(R139). A CW that spells a row's write is that row. Nothing but the take changes. -/
def Obligations.RegisterWriteJudgement : Prop :=
  ∀ (q : Requester) (a : Addr) (n : BitVec 16) (data : List Byte) (s : State), CanPresent q s →
    data.length = n.toNat → 1 ≤ n.toNat → n.toNat ≤ 256 →
    (selectLock a = none → selectField a = none →
      exec (.registerWrite q a n data) s = .next (answered q .badObject [] (taken q s))) ∧
    (∀ f whole, selectField a = some (f, whole) →
      (f.open? = false → s.manager q.node q.port = false →
        exec (.registerWrite q a n data) s = .next
          (answered q .denied []
            (raise
              { kind := .managementDenied
                details := { port := some q.port, node := some q.node, address := some a } }
              (taken q s)))) ∧
      (f.open? = true ∨ s.manager q.node q.port = true →
        (whole = false ∨ n.toNat ≠ f.width →
          exec (.registerWrite q a n data) s = .next (answered q .badLength [] (taken q s))) ∧
        (whole = true → n.toNat = f.width →
          (f.writable = false →
            exec (.registerWrite q a n data) s = .next (answered q .readOnly [] (taken q s))) ∧
          ((∃ k, f = .breakField k) ∨ f = .reset → numBE data ≠ 1 →
            exec (.registerWrite q a n data) s = .next (answered q .badValue [] (taken q s))) ∧
          (∀ t w, f = .command t w → numBE data = 0 ∨ 3 < numBE data →
            exec (.registerWrite q a n data) s = .next (answered q .badValue [] (taken q s)))))) ∧
    (∀ k, a = (LockObject.acquire k).address →
      exec (.registerWrite q a n data) s = .next (answered q .readOnly [] (taken q s))) ∧
    (∀ k, a = (LockObject.release k).address → n.toNat ≠ 4 →
      exec (.registerWrite q a n data) s = .next (answered q .badLength [] (taken q s))) ∧
    (∀ (c : Instr) (r : Request), requestOf c s = some (q.port, r) →
      r = requestFor q .cw a n data s → exec (.registerWrite q a n data) s = exec c s)

/-! ## Laws of every step -/

/-- The link state of a port changes by the events of Table 1-3 alone (R10, R11, R127, R128, R129): DOWN to UP by its link establishment; to DOWN
by its link loss or power-up reset; UP to STALLED by its stall timer's expiry, as a row or at a tick; STALLED to UP by a CRD of 1..16. -/
def Obligations.LinkStateChangesByItsEvents : Prop :=
  ∀ (s t : State) (p : Port), PortLaw s → step s = .next t → (t.port p).link ≠ (s.port p).link →
    ((s.port p).link = .down ∧ (t.port p).link = .up ∧ ∃ rest, s.pending = .linkEstablishment p :: rest) ∨
    ((t.port p).link = .down ∧ ∃ rest, s.pending = .linkLoss p :: rest ∨ s.pending = .powerUpReset :: rest) ∨
    ((s.port p).link = .up ∧ (t.port p).link = .stalled ∧
      (s.pending = [] ∨ ∃ rest, s.pending = .stallTimerExpiry p :: rest)) ∨
    ((s.port p).link = .stalled ∧ (t.port p).link = .up ∧
      ∃ (i : Byte) (rest : List Instr), 1 ≤ i.toNat ∧ i.toNat ≤ 16 ∧
        (s.pending = .creditArrival p i :: rest ∨
          ∃ b, s.pending = .undefinedPacketArrival p b :: rest ∧ readPacket b = .credit i))

/-- Every step keeps the laws of the ports: the bounds of buffers and counts (R15, R17, R101, R119, R122), empty DOWN and STALLED ports (R11, R128),
and a stall timer that runs exactly while R126's three conditions hold and tSTALL is not OFF. -/
def Obligations.StepKeepsPortLaw : Prop :=
  ∀ s t : State, PortLaw s → step s = .next t → PortLaw t

/-- Every step keeps the laws of the window tables: a FAULTED window has a record and an ACTIVE one none (R41), windows in force have passed
ENABLE's checks (R31, R32), and no two of one table and space overlap (R33). -/
def Obligations.StepKeepsWindowLaws : Prop :=
  ∀ s t : State, RecordLaw s → EnabledLaw s → OverlapLaw s → step s = .next t → RecordLaw t ∧ EnabledLaw t ∧ OverlapLaw t

/-- Every step keeps a window in force from targeting the identity of its own forward port (R32, R8), and the part at its power-up values while
RESET_N is low (R197). -/
def Obligations.StepKeepsTargetsApart : Prop :=
  ∀ s t : State, ResetLaw s → TargetLaw s → step s = .next t → ResetLaw t ∧ TargetLaw t

/-- Every step keeps what the states of Table 4-4 say of an entry's segments, result and deadline, and the correspondence of queued packets and
NOT_SENT segments (R78). -/
def Obligations.StepKeepsEntriesAndPackets : Prop :=
  ∀ s t : State, EntryLaw s → EgressLaw s → step s = .next t → EntryLaw t ∧ EgressLaw t

/-- Every step keeps the counts of the request table: a window's in-flight count equals the number of entries charged to it, and is 0 when DISABLED
(R43); the done order lists the DONE entries, each once (R90); the reservation inequality holds for both directions, with reserves of at most 32
(R62, R74). -/
def Obligations.StepKeepsTableCounts : Prop :=
  ∀ s t : State, EntryLaw s → ChargeLaw s → DoneLaw s → ReserveLaw s → step s = .next t →
    ChargeLaw t ∧ DoneLaw t ∧ ReserveLaw t

/-- Every step keeps the law of the locks (R142, R146, R148): at most 4 waiters, a pair at most once among holder and waiters, no waiters on a
lock that is free with an empty outbox, a grant in the outbox that is the holder's or LOCK_BROKEN without one, a lease only for a placed
holder. -/
def Obligations.StepKeepsLockLaw : Prop :=
  ∀ s t : State, LockLaw s → step s = .next t → LockLaw t

/-- Every step keeps the bounds of the notice unit, an empty queue without a target port (R164, R160, R163), and the bounds of the timebase (R187,
R189). -/
def Obligations.StepKeepsNoticeAndTimebase : Prop :=
  ∀ s t : State, NoticeLaw s → TimebaseLaw s → step s = .next t → NoticeLaw t ∧ TimebaseLaw t

/-- Every event leaves nothing to settle: no claim waits at an open port with a free slot (R104), and a head that waits lacks a resource of its
disposal (R49, R60). -/
def Obligations.EveryEventSettles : Prop :=
  ∀ s t : State, PortLaw s → ResetLaw s → AtRest s → step s = .next t → AtRest t

/-- The part right after power-up reset meets every law. -/
def Obligations.ResetSatisfiesEveryLaw : Prop :=
  PortLaw State.reset ∧ RecordLaw State.reset ∧ EnabledLaw State.reset ∧ OverlapLaw State.reset ∧
    TargetLaw State.reset ∧ ResetLaw State.reset ∧ ChargeLaw State.reset ∧ ReserveLaw State.reset ∧
    EntryLaw State.reset ∧ EgressLaw State.reset ∧ DoneLaw State.reset ∧ LockLaw State.reset ∧
    NoticeLaw State.reset ∧ TimebaseLaw State.reset ∧ AtRest State.reset

/-- MILLISECOND_COUNT_INCREMENT adds 1 to the millisecond count, which wraps from 0xFFFF_FFFF to 0 (R189). The model's choices: the row increments
whenever it is sent with RESET_N high and leaves the progress toward the next millisecond alone (log 2), and with RESET_N low it changes nothing
(log 23). -/
def Obligations.MillisecondCountWraps : Prop :=
  ∀ s : State,
    (s.resetN = true → ∃ t, exec .millisecondCountIncrement s = .next t ∧
      t = { s with timebase := { s.timebase with msCount := t.timebase.msCount } } ∧
      t.timebase.msCount.toNat =
        if s.timebase.msCount.toNat = 0xFFFFFFFF then 0 else s.timebase.msCount.toNat + 1) ∧
    (s.resetN = false → exec .millisecondCountIncrement s = .next s)
end

