-- ==== Sys2Proof/Laws/Checks.lean ====
section
/-! SUPPORT. Checks that can be evaluated, each with the law that it establishes: for concrete states. -/

namespace Sys2Proof.Machine

open Sys2Proof.Safety

/-- A property of every entry, checked entry by entry. -/
theorem forall_entry {s : State} {P : Fin 64 → Entry → Prop} [∀ e x, Decidable (P e x)]
    (h : allEntries.all (fun e => match s.entry e with
      | some x => decide (P e x)
      | none => true) = true) : ∀ e x, s.entry e = some x → P e x := by
  intro e x hx
  have := (List.all_eq_true.1 h) e (List.mem_finRange e)
  rw [hx] at this
  exact of_decide_eq_true this

/-- The law of one entry, as `EntryLaw` states it. -/
def entryOk (x : Entry) : Bool :=
  match x.state with
  | .pending => x.unsent && !x.timedOut && x.result.isNone
  | .issued => !x.unsent && !x.resolved && !x.timedOut && x.result.isNone
  | .done => x.resolved && x.result.isSome && x.deadline.isNone
  | .quarantined => x.resolved && x.result.isSome && x.deadline.isNone && x.timedOut

theorem entryLaw_of_check {s : State}
    (h : allEntries.all (fun e => match s.entry e with
      | some x => entryOk x
      | none => true) = true) : EntryLaw s := by
  intro e x hx
  have hk := (List.all_eq_true.1 h) e (List.mem_finRange e)
  rw [hx] at hk
  unfold entryOk at hk
  cases hs : x.state <;> simp [hs] at hk ⊢ <;> simp [hk]

/-- The done order against the entries. -/
def doneOk (s : State) : Bool :=
  decide s.doneOrder.Nodup && allEntries.all (fun e => decide (e ∈ s.doneOrder) == (match s.entry e with
    | some x => decide (x.state = .done)
    | none => false))

theorem doneLaw_of_check {s : State} (h : doneOk s = true) : DoneLaw s := by
  unfold doneOk at h
  rw [Bool.and_eq_true] at h
  refine ⟨of_decide_eq_true h.1, fun e => ?_⟩
  have := (List.all_eq_true.1 h.2) e (List.mem_finRange e)
  have he := eq_of_beq this
  cases hx : s.entry e with
  | none =>
    rw [hx] at he
    simp at he
    simp [he]
  | some x =>
    rw [hx] at he
    by_cases hd : x.state = .done <;> simp [hd] at he ⊢ <;> exact he

/-- Queued segment packets against NOT_SENT segments. -/
def egressOk (s : State) : Bool :=
  [Port.u, .d].all (fun p => decide (segmentRefs (s.port p).egress).Nodup &&
    (segmentRefs (s.port p).egress).all (fun r => match s.entry r.1 with
      | some x => decide (x.state = .pending) && decide (forwardPort x.dir = p) && (match x.segments[r.2]? with
        | some g => decide (g.state = .notSent)
        | none => false)
      | none => false)) &&
  allEntries.all (fun e => match s.entry e with
    | some x => x.segments.zipIdx.all (fun g => decide (g.1.state ≠ .notSent) ||
        decide ((e, g.2) ∈ segmentRefs (s.port (forwardPort x.dir)).egress))
    | none => true)

theorem egressLaw_of_check {s : State} (h : egressOk s = true) : EgressLaw s := by
  unfold egressOk at h
  rw [Bool.and_eq_true] at h
  refine ⟨fun p => ?_, fun e n x g hx hg hs => ?_⟩
  · have hp := (List.all_eq_true.1 h.1) p (by cases p <;> simp)
    rw [Bool.and_eq_true] at hp
    refine ⟨of_decide_eq_true hp.1, fun e n hm => ?_⟩
    have hr := (List.all_eq_true.1 hp.2) (e, n) hm
    simp only at hr
    cases hx : s.entry e with
    | none => simp [hx] at hr
    | some x =>
      cases hg : x.segments[n]? with
      | none => simp [hx, hg] at hr
      | some g =>
        simp [hx, hg] at hr
        exact ⟨x, g, rfl, hr.1.1, hr.1.2, hg, hr.2⟩
  · have he := (List.all_eq_true.1 h.2) e (List.mem_finRange e)
    rw [hx] at he
    have := (List.all_eq_true.1 he) (g, n) (List.mem_zipIdx_iff_getElem?.2 hg)
    simpa [hs] using this

/-- The overlap of windows in force. -/
def overlapOk (s : State) : Bool :=
  [Dir.down, .up].all (fun t => allWindows.all (fun v => allWindows.all (fun w =>
    decide (v = w) || !(s.window t v).inForce || !(s.window t w).inForce ||
      decide ((s.window t v).space ≠ (s.window t w).space) || !(s.window t v).meets (s.window t w))))

theorem overlapLaw_of_check {s : State} (h : overlapOk s = true) : OverlapLaw s := by
  intro t v w hvw hv hw hs
  have h1 := (List.all_eq_true.1 h) t (by cases t <;> simp)
  have h2 := (List.all_eq_true.1 h1) v (List.mem_finRange v)
  have h3 := (List.all_eq_true.1 h2) w (List.mem_finRange w)
  simpa [hvw, hv, hw, hs] using h3

/-- The laws of the locks. -/
def lockOk (x : Lock) : Bool :=
  decide (x.waiters.length ≤ 4) && decide (lockPairs x).Nodup
    && (x.waiters.isEmpty || x.holder.isSome || x.outbox.isSome)
    && (match x.outbox with
      | none => true
      | some h => (decide (h.answer.status = .ok) && decide (x.holder = some (h.answer.node, h.port)))
        || (decide (h.answer.status = .lockBroken) && decide (x.holder = none)))
    && (x.lease.isNone || (x.holder.isSome && x.outbox.isNone))

theorem lockLaw_of_check {s : State} (h : allLocks.all (fun k => lockOk (s.lock k)) = true) : LockLaw s := by
  intro k
  have hk := (List.all_eq_true.1 h) k (List.mem_finRange k)
  simp only [lockOk, Bool.and_eq_true, decide_eq_true_eq] at hk
  obtain ⟨⟨⟨⟨h1, h2⟩, h3⟩, h4⟩, h5⟩ := hk
  refine ⟨h1, h2, fun hw => ?_, fun o ho => ?_, fun hl => ?_⟩
  · simp only [Bool.or_eq_true, List.isEmpty_iff, Option.isSome_iff_ne_none] at h3
    rcases h3 with (h3 | h3) | h3
    · exact absurd h3 hw
    · exact .inl h3
    · exact .inr h3
  · rw [ho] at h4
    simpa using h4
  · cases hs : (s.lock k).lease with
    | none => simp [hs] at hl
    | some n => simpa [hs, Option.isSome_iff_ne_none] using h5

/-- The rest between events, checked at both ports. -/
theorem quiet_of_check {s : State} (hu : nextClaim .u s = none) (hd : nextClaim .d s = none)
    (h1 : s.portU.headWaits = false) (h2 : s.portD.headWaits = false) : Quiet s :=
  ⟨fun p => by cases p; exact hu; exact hd, h1, h2⟩

/-- Nothing to give out at either port, and no head waiting. -/
def calm (s : State) : Bool :=
  decide (nextClaim .u s = none) && decide (nextClaim .d s = none) && !s.portU.headWaits && !s.portD.headWaits

theorem quiet_of_calm {s : State} (h : calm s = true) : Quiet s := by
  simp only [calm, Bool.and_eq_true, decide_eq_true_eq, Bool.not_eq_true'] at h
  exact quiet_of_check h.1.1.1 h.1.1.2 h.1.2 h.2

/-- Requester `q`'s port can take its request. -/
def mayPresent (q : Requester) (s : State) : Bool :=
  calm s && decide ((s.port q.port).link ≠ .down) && decide ((s.port q.port).ingress = [])
    && decide ((s.port q.port).completions.length < 16)

theorem canPresent_of_check {q : Requester} {s : State} (h : mayPresent q s = true) : CanPresent q s := by
  simp only [mayPresent, Bool.and_eq_true, decide_eq_true_eq] at h
  exact ⟨quiet_of_calm h.1.1.1, h.1.1.2, h.1.2, h.2⟩

theorem managerCanPresent_of_check {q : Requester} {s : State} (h : mayPresent q s = true)
    (hm : s.manager q.node q.port = true) : ManagerCanPresent q s := ⟨canPresent_of_check h, hm⟩

end Sys2Proof.Machine
end

