-- ==== Sys2Proof/Laws/State.lean ====
section
/-! SUPPORT. What each replacement of a part of the state leaves: one lemma per accessor and per replacement, so that no proof unfolds them. -/

namespace Sys2Proof.Machine

/-! ## A part read after it was replaced -/

@[simp] theorem State.port_setPort_self (s : State) (p : Port) (x : PortState) : (s.setPort p x).port p = x := by
  cases p <;> rfl

@[simp] theorem State.port_setPort_ne (s : State) (p q : Port) (x : PortState) (h : q ≠ p) :
    (s.setPort p x).port q = s.port q := by
  cases p <;> cases q <;> first | rfl | exact absurd rfl h

theorem State.port_setPort (s : State) (p q : Port) (x : PortState) :
    (s.setPort p x).port q = if q = p then x else s.port q := by
  by_cases h : q = p
  · subst h; simp
  · simp [h]

@[simp] theorem State.setPort_port (s : State) (p : Port) : s.setPort p (s.port p) = s := by
  cases p <;> rfl

@[simp] theorem State.setPort_setPort (s : State) (p : Port) (x y : PortState) :
    (s.setPort p x).setPort p y = s.setPort p y := by
  cases p <;> rfl

theorem State.setPort_comm (s : State) (p q : Port) (x y : PortState) (h : p ≠ q) :
    (s.setPort p x).setPort q y = (s.setPort q y).setPort p x := by
  cases p <;> cases q <;> first | rfl | exact absurd rfl h

@[simp] theorem State.window_setWindow_self (s : State) (t : Dir) (w : Fin 16) (x : Window) :
    (s.setWindow t w x).window t w = x := by
  cases t <;> simp [State.setWindow, State.window]

theorem State.window_setWindow (s : State) (t d : Dir) (w v : Fin 16) (x : Window) :
    (s.setWindow t w x).window d v = if d = t ∧ v = w then x else s.window d v := by
  cases t <;> cases d <;>
    simp [State.setWindow, State.window, Vector.getElem_set, Fin.ext_iff, eq_comm]

@[simp] theorem State.setWindow_window (s : State) (t : Dir) (w : Fin 16) : s.setWindow t w (s.window t w) = s := by
  cases t <;> simp [State.setWindow, State.window]

@[simp] theorem State.setWindow_setWindow (s : State) (t : Dir) (w : Fin 16) (x y : Window) :
    (s.setWindow t w x).setWindow t w y = s.setWindow t w y := by
  cases t <;> simp [State.setWindow]

@[simp] theorem State.entry_setEntry_self (s : State) (e : Fin 64) (x : Option Entry) :
    (s.setEntry e x).entry e = x := by
  simp [State.setEntry, State.entry]

theorem State.entry_setEntry (s : State) (e i : Fin 64) (x : Option Entry) :
    (s.setEntry e x).entry i = if i = e then x else s.entry i := by
  simp [State.setEntry, State.entry, Vector.getElem_set, Fin.ext_iff, eq_comm]

@[simp] theorem State.setEntry_entry (s : State) (e : Fin 64) : s.setEntry e (s.entry e) = s := by
  simp [State.setEntry, State.entry]

@[simp] theorem State.setEntry_setEntry (s : State) (e : Fin 64) (x y : Option Entry) :
    (s.setEntry e x).setEntry e y = s.setEntry e y := by
  simp [State.setEntry]

@[simp] theorem State.lock_setLock_self (s : State) (k : Fin 8) (x : Lock) : (s.setLock k x).lock k = x := by
  simp [State.setLock, State.lock]

theorem State.lock_setLock (s : State) (k j : Fin 8) (x : Lock) :
    (s.setLock k x).lock j = if j = k then x else s.lock j := by
  simp [State.setLock, State.lock, Vector.getElem_set, Fin.ext_iff, eq_comm]

@[simp] theorem State.setLock_lock (s : State) (k : Fin 8) : s.setLock k (s.lock k) = s := by
  simp [State.setLock, State.lock]

@[simp] theorem State.setLock_setLock (s : State) (k : Fin 8) (x y : Lock) :
    (s.setLock k x).setLock k y = s.setLock k y := by
  simp [State.setLock]

theorem State.reserve_setReserve (s : State) (x d : Dir) (v : Nat) :
    (s.setReserve x v).reserve d = if d = x then v else s.reserve d := by
  cases x <;> cases d <;> rfl

theorem State.tcto_setTcto (s : State) (x d : Dir) (v : TCto) :
    (s.setTcto x v).tcto d = if d = x then v else s.tcto d := by
  cases x <;> cases d <;> rfl

/-- Two states with the same parts are equal. -/
theorem State.ext_parts {s t : State} (hp : ∀ p, s.port p = t.port p) (hw : ∀ d w, s.window d w = t.window d w)
    (he : ∀ e, s.entry e = t.entry e) (hl : ∀ k, s.lock k = t.lock k)
    (h : { s with portU := t.portU, portD := t.portD, down := t.down, up := t.up, entries := t.entries,
                  locks := t.locks } = t) : s = t := by
  have hU : s.portU = t.portU := hp .u
  have hD : s.portD = t.portD := hp .d
  have hd : s.down = t.down := by
    ext i hi : 1
    exact hw .down ⟨i, hi⟩
  have hu : s.up = t.up := by
    ext i hi : 1
    exact hw .up ⟨i, hi⟩
  have hE : s.entries = t.entries := by
    ext i hi : 1
    exact he ⟨i, hi⟩
  have hL : s.locks = t.locks := by
    ext i hi : 1
    exact hl ⟨i, hi⟩
  rw [← h, ← hU, ← hD, ← hd, ← hu, ← hE, ← hL]

/-! ## The other parts -/

@[simp] theorem State.setPort_resetN (s : State) (p : Port) (x : PortState) : (s.setPort p x).resetN = s.resetN := by cases p <;> rfl
@[simp] theorem State.setPort_down (s : State) (p : Port) (x : PortState) : (s.setPort p x).down = s.down := by cases p <;> rfl
@[simp] theorem State.setPort_up (s : State) (p : Port) (x : PortState) : (s.setPort p x).up = s.up := by cases p <;> rfl
@[simp] theorem State.setPort_entries (s : State) (p : Port) (x : PortState) : (s.setPort p x).entries = s.entries := by cases p <;> rfl
@[simp] theorem State.setPort_doneOrder (s : State) (p : Port) (x : PortState) : (s.setPort p x).doneOrder = s.doneOrder := by cases p <;> rfl
@[simp] theorem State.setPort_reserveDown (s : State) (p : Port) (x : PortState) : (s.setPort p x).reserveDown = s.reserveDown := by cases p <;> rfl
@[simp] theorem State.setPort_reserveUp (s : State) (p : Port) (x : PortState) : (s.setPort p x).reserveUp = s.reserveUp := by cases p <;> rfl
@[simp] theorem State.setPort_tctoDown (s : State) (p : Port) (x : PortState) : (s.setPort p x).tctoDown = s.tctoDown := by cases p <;> rfl
@[simp] theorem State.setPort_tctoUp (s : State) (p : Port) (x : PortState) : (s.setPort p x).tctoUp = s.tctoUp := by cases p <;> rfl
@[simp] theorem State.setPort_locks (s : State) (p : Port) (x : PortState) : (s.setPort p x).locks = s.locks := by cases p <;> rfl
@[simp] theorem State.setPort_notices (s : State) (p : Port) (x : PortState) : (s.setPort p x).notices = s.notices := by cases p <;> rfl
@[simp] theorem State.setPort_managers (s : State) (p : Port) (x : PortState) : (s.setPort p x).managers = s.managers := by cases p <;> rfl
@[simp] theorem State.setPort_timebase (s : State) (p : Port) (x : PortState) : (s.setPort p x).timebase = s.timebase := by cases p <;> rfl
@[simp] theorem State.setPort_freeNext (s : State) (p : Port) (x : PortState) : (s.setPort p x).freeNext = s.freeNext := by cases p <;> rfl
@[simp] theorem State.setPort_pending (s : State) (p : Port) (x : PortState) : (s.setPort p x).pending = s.pending := by cases p <;> rfl
@[simp] theorem State.window_setPort (s : State) (p : Port) (x : PortState) (d' : Dir) (v' : Fin 16) :
    (s.setPort p x).window d' v' = s.window d' v' := by cases p <;> cases d' <;> rfl
@[simp] theorem State.entry_setPort (s : State) (p : Port) (x : PortState) (i : Fin 64) :
    (s.setPort p x).entry i = s.entry i := by cases p <;> rfl
@[simp] theorem State.lock_setPort (s : State) (p : Port) (x : PortState) (j : Fin 8) :
    (s.setPort p x).lock j = s.lock j := by cases p <;> rfl
@[simp] theorem State.reserve_setPort (s : State) (p : Port) (x : PortState) (y : Dir) :
    (s.setPort p x).reserve y = s.reserve y := by cases p <;> cases y <;> rfl
@[simp] theorem State.tcto_setPort (s : State) (p : Port) (x : PortState) (y : Dir) :
    (s.setPort p x).tcto y = s.tcto y := by cases p <;> cases y <;> rfl
@[simp] theorem State.noticeClass_setPort (s : State) (p : Port) (x : PortState) (c : NoticeKind) :
    (s.setPort p x).noticeClass c = s.noticeClass c := by cases p <;> rfl
@[simp] theorem State.inUse_setPort (s : State) (p : Port) (x : PortState) (y : Dir) :
    (s.setPort p x).inUse y = s.inUse y := by cases p <;> rfl

@[simp] theorem State.setWindow_resetN (s : State) (t : Dir) (w : Fin 16) (x : Window) : (s.setWindow t w x).resetN = s.resetN := by cases t <;> rfl
@[simp] theorem State.setWindow_portU (s : State) (t : Dir) (w : Fin 16) (x : Window) : (s.setWindow t w x).portU = s.portU := by cases t <;> rfl
@[simp] theorem State.setWindow_portD (s : State) (t : Dir) (w : Fin 16) (x : Window) : (s.setWindow t w x).portD = s.portD := by cases t <;> rfl
@[simp] theorem State.setWindow_entries (s : State) (t : Dir) (w : Fin 16) (x : Window) : (s.setWindow t w x).entries = s.entries := by cases t <;> rfl
@[simp] theorem State.setWindow_doneOrder (s : State) (t : Dir) (w : Fin 16) (x : Window) : (s.setWindow t w x).doneOrder = s.doneOrder := by cases t <;> rfl
@[simp] theorem State.setWindow_reserveDown (s : State) (t : Dir) (w : Fin 16) (x : Window) : (s.setWindow t w x).reserveDown = s.reserveDown := by cases t <;> rfl
@[simp] theorem State.setWindow_reserveUp (s : State) (t : Dir) (w : Fin 16) (x : Window) : (s.setWindow t w x).reserveUp = s.reserveUp := by cases t <;> rfl
@[simp] theorem State.setWindow_tctoDown (s : State) (t : Dir) (w : Fin 16) (x : Window) : (s.setWindow t w x).tctoDown = s.tctoDown := by cases t <;> rfl
@[simp] theorem State.setWindow_tctoUp (s : State) (t : Dir) (w : Fin 16) (x : Window) : (s.setWindow t w x).tctoUp = s.tctoUp := by cases t <;> rfl
@[simp] theorem State.setWindow_locks (s : State) (t : Dir) (w : Fin 16) (x : Window) : (s.setWindow t w x).locks = s.locks := by cases t <;> rfl
@[simp] theorem State.setWindow_notices (s : State) (t : Dir) (w : Fin 16) (x : Window) : (s.setWindow t w x).notices = s.notices := by cases t <;> rfl
@[simp] theorem State.setWindow_managers (s : State) (t : Dir) (w : Fin 16) (x : Window) : (s.setWindow t w x).managers = s.managers := by cases t <;> rfl
@[simp] theorem State.setWindow_timebase (s : State) (t : Dir) (w : Fin 16) (x : Window) : (s.setWindow t w x).timebase = s.timebase := by cases t <;> rfl
@[simp] theorem State.setWindow_freeNext (s : State) (t : Dir) (w : Fin 16) (x : Window) : (s.setWindow t w x).freeNext = s.freeNext := by cases t <;> rfl
@[simp] theorem State.setWindow_pending (s : State) (t : Dir) (w : Fin 16) (x : Window) : (s.setWindow t w x).pending = s.pending := by cases t <;> rfl
@[simp] theorem State.port_setWindow (s : State) (t : Dir) (w : Fin 16) (x : Window) (q : Port) :
    (s.setWindow t w x).port q = s.port q := by cases t <;> cases q <;> rfl
@[simp] theorem State.entry_setWindow (s : State) (t : Dir) (w : Fin 16) (x : Window) (i : Fin 64) :
    (s.setWindow t w x).entry i = s.entry i := by cases t <;> rfl
@[simp] theorem State.lock_setWindow (s : State) (t : Dir) (w : Fin 16) (x : Window) (j : Fin 8) :
    (s.setWindow t w x).lock j = s.lock j := by cases t <;> rfl
@[simp] theorem State.reserve_setWindow (s : State) (t : Dir) (w : Fin 16) (x : Window) (y : Dir) :
    (s.setWindow t w x).reserve y = s.reserve y := by cases t <;> cases y <;> rfl
@[simp] theorem State.tcto_setWindow (s : State) (t : Dir) (w : Fin 16) (x : Window) (y : Dir) :
    (s.setWindow t w x).tcto y = s.tcto y := by cases t <;> cases y <;> rfl
@[simp] theorem State.noticeClass_setWindow (s : State) (t : Dir) (w : Fin 16) (x : Window) (c : NoticeKind) :
    (s.setWindow t w x).noticeClass c = s.noticeClass c := by cases t <;> rfl
@[simp] theorem State.inUse_setWindow (s : State) (t : Dir) (w : Fin 16) (x : Window) (y : Dir) :
    (s.setWindow t w x).inUse y = s.inUse y := by cases t <;> rfl

@[simp] theorem State.setEntry_resetN (s : State) (e : Fin 64) (x : Option Entry) : (s.setEntry e x).resetN = s.resetN := by rfl
@[simp] theorem State.setEntry_portU (s : State) (e : Fin 64) (x : Option Entry) : (s.setEntry e x).portU = s.portU := by rfl
@[simp] theorem State.setEntry_portD (s : State) (e : Fin 64) (x : Option Entry) : (s.setEntry e x).portD = s.portD := by rfl
@[simp] theorem State.setEntry_down (s : State) (e : Fin 64) (x : Option Entry) : (s.setEntry e x).down = s.down := by rfl
@[simp] theorem State.setEntry_up (s : State) (e : Fin 64) (x : Option Entry) : (s.setEntry e x).up = s.up := by rfl
@[simp] theorem State.setEntry_doneOrder (s : State) (e : Fin 64) (x : Option Entry) : (s.setEntry e x).doneOrder = s.doneOrder := by rfl
@[simp] theorem State.setEntry_reserveDown (s : State) (e : Fin 64) (x : Option Entry) : (s.setEntry e x).reserveDown = s.reserveDown := by rfl
@[simp] theorem State.setEntry_reserveUp (s : State) (e : Fin 64) (x : Option Entry) : (s.setEntry e x).reserveUp = s.reserveUp := by rfl
@[simp] theorem State.setEntry_tctoDown (s : State) (e : Fin 64) (x : Option Entry) : (s.setEntry e x).tctoDown = s.tctoDown := by rfl
@[simp] theorem State.setEntry_tctoUp (s : State) (e : Fin 64) (x : Option Entry) : (s.setEntry e x).tctoUp = s.tctoUp := by rfl
@[simp] theorem State.setEntry_locks (s : State) (e : Fin 64) (x : Option Entry) : (s.setEntry e x).locks = s.locks := by rfl
@[simp] theorem State.setEntry_notices (s : State) (e : Fin 64) (x : Option Entry) : (s.setEntry e x).notices = s.notices := by rfl
@[simp] theorem State.setEntry_managers (s : State) (e : Fin 64) (x : Option Entry) : (s.setEntry e x).managers = s.managers := by rfl
@[simp] theorem State.setEntry_timebase (s : State) (e : Fin 64) (x : Option Entry) : (s.setEntry e x).timebase = s.timebase := by rfl
@[simp] theorem State.setEntry_freeNext (s : State) (e : Fin 64) (x : Option Entry) : (s.setEntry e x).freeNext = s.freeNext := by rfl
@[simp] theorem State.setEntry_pending (s : State) (e : Fin 64) (x : Option Entry) : (s.setEntry e x).pending = s.pending := by rfl
@[simp] theorem State.port_setEntry (s : State) (e : Fin 64) (x : Option Entry) (q : Port) :
    (s.setEntry e x).port q = s.port q := by cases q <;> rfl
@[simp] theorem State.window_setEntry (s : State) (e : Fin 64) (x : Option Entry) (d' : Dir) (v' : Fin 16) :
    (s.setEntry e x).window d' v' = s.window d' v' := by cases d' <;> rfl
@[simp] theorem State.lock_setEntry (s : State) (e : Fin 64) (x : Option Entry) (j : Fin 8) :
    (s.setEntry e x).lock j = s.lock j := by rfl
@[simp] theorem State.reserve_setEntry (s : State) (e : Fin 64) (x : Option Entry) (y : Dir) :
    (s.setEntry e x).reserve y = s.reserve y := by cases y <;> rfl
@[simp] theorem State.tcto_setEntry (s : State) (e : Fin 64) (x : Option Entry) (y : Dir) :
    (s.setEntry e x).tcto y = s.tcto y := by cases y <;> rfl
@[simp] theorem State.noticeClass_setEntry (s : State) (e : Fin 64) (x : Option Entry) (c : NoticeKind) :
    (s.setEntry e x).noticeClass c = s.noticeClass c := by rfl

@[simp] theorem State.setLock_resetN (s : State) (k : Fin 8) (x : Lock) : (s.setLock k x).resetN = s.resetN := by rfl
@[simp] theorem State.setLock_portU (s : State) (k : Fin 8) (x : Lock) : (s.setLock k x).portU = s.portU := by rfl
@[simp] theorem State.setLock_portD (s : State) (k : Fin 8) (x : Lock) : (s.setLock k x).portD = s.portD := by rfl
@[simp] theorem State.setLock_down (s : State) (k : Fin 8) (x : Lock) : (s.setLock k x).down = s.down := by rfl
@[simp] theorem State.setLock_up (s : State) (k : Fin 8) (x : Lock) : (s.setLock k x).up = s.up := by rfl
@[simp] theorem State.setLock_entries (s : State) (k : Fin 8) (x : Lock) : (s.setLock k x).entries = s.entries := by rfl
@[simp] theorem State.setLock_doneOrder (s : State) (k : Fin 8) (x : Lock) : (s.setLock k x).doneOrder = s.doneOrder := by rfl
@[simp] theorem State.setLock_reserveDown (s : State) (k : Fin 8) (x : Lock) : (s.setLock k x).reserveDown = s.reserveDown := by rfl
@[simp] theorem State.setLock_reserveUp (s : State) (k : Fin 8) (x : Lock) : (s.setLock k x).reserveUp = s.reserveUp := by rfl
@[simp] theorem State.setLock_tctoDown (s : State) (k : Fin 8) (x : Lock) : (s.setLock k x).tctoDown = s.tctoDown := by rfl
@[simp] theorem State.setLock_tctoUp (s : State) (k : Fin 8) (x : Lock) : (s.setLock k x).tctoUp = s.tctoUp := by rfl
@[simp] theorem State.setLock_notices (s : State) (k : Fin 8) (x : Lock) : (s.setLock k x).notices = s.notices := by rfl
@[simp] theorem State.setLock_managers (s : State) (k : Fin 8) (x : Lock) : (s.setLock k x).managers = s.managers := by rfl
@[simp] theorem State.setLock_timebase (s : State) (k : Fin 8) (x : Lock) : (s.setLock k x).timebase = s.timebase := by rfl
@[simp] theorem State.setLock_freeNext (s : State) (k : Fin 8) (x : Lock) : (s.setLock k x).freeNext = s.freeNext := by rfl
@[simp] theorem State.setLock_pending (s : State) (k : Fin 8) (x : Lock) : (s.setLock k x).pending = s.pending := by rfl
@[simp] theorem State.port_setLock (s : State) (k : Fin 8) (x : Lock) (q : Port) :
    (s.setLock k x).port q = s.port q := by cases q <;> rfl
@[simp] theorem State.window_setLock (s : State) (k : Fin 8) (x : Lock) (d' : Dir) (v' : Fin 16) :
    (s.setLock k x).window d' v' = s.window d' v' := by cases d' <;> rfl
@[simp] theorem State.entry_setLock (s : State) (k : Fin 8) (x : Lock) (i : Fin 64) :
    (s.setLock k x).entry i = s.entry i := by rfl
@[simp] theorem State.reserve_setLock (s : State) (k : Fin 8) (x : Lock) (y : Dir) :
    (s.setLock k x).reserve y = s.reserve y := by cases y <;> rfl
@[simp] theorem State.tcto_setLock (s : State) (k : Fin 8) (x : Lock) (y : Dir) :
    (s.setLock k x).tcto y = s.tcto y := by cases y <;> rfl
@[simp] theorem State.noticeClass_setLock (s : State) (k : Fin 8) (x : Lock) (c : NoticeKind) :
    (s.setLock k x).noticeClass c = s.noticeClass c := by rfl
@[simp] theorem State.inUse_setLock (s : State) (k : Fin 8) (x : Lock) (y : Dir) :
    (s.setLock k x).inUse y = s.inUse y := by rfl

@[simp] theorem State.setReserve_resetN (s : State) (d : Dir) (v : Nat) : (s.setReserve d v).resetN = s.resetN := by cases d <;> rfl
@[simp] theorem State.setReserve_portU (s : State) (d : Dir) (v : Nat) : (s.setReserve d v).portU = s.portU := by cases d <;> rfl
@[simp] theorem State.setReserve_portD (s : State) (d : Dir) (v : Nat) : (s.setReserve d v).portD = s.portD := by cases d <;> rfl
@[simp] theorem State.setReserve_down (s : State) (d : Dir) (v : Nat) : (s.setReserve d v).down = s.down := by cases d <;> rfl
@[simp] theorem State.setReserve_up (s : State) (d : Dir) (v : Nat) : (s.setReserve d v).up = s.up := by cases d <;> rfl
@[simp] theorem State.setReserve_entries (s : State) (d : Dir) (v : Nat) : (s.setReserve d v).entries = s.entries := by cases d <;> rfl
@[simp] theorem State.setReserve_doneOrder (s : State) (d : Dir) (v : Nat) : (s.setReserve d v).doneOrder = s.doneOrder := by cases d <;> rfl
@[simp] theorem State.setReserve_tctoDown (s : State) (d : Dir) (v : Nat) : (s.setReserve d v).tctoDown = s.tctoDown := by cases d <;> rfl
@[simp] theorem State.setReserve_tctoUp (s : State) (d : Dir) (v : Nat) : (s.setReserve d v).tctoUp = s.tctoUp := by cases d <;> rfl
@[simp] theorem State.setReserve_locks (s : State) (d : Dir) (v : Nat) : (s.setReserve d v).locks = s.locks := by cases d <;> rfl
@[simp] theorem State.setReserve_notices (s : State) (d : Dir) (v : Nat) : (s.setReserve d v).notices = s.notices := by cases d <;> rfl
@[simp] theorem State.setReserve_managers (s : State) (d : Dir) (v : Nat) : (s.setReserve d v).managers = s.managers := by cases d <;> rfl
@[simp] theorem State.setReserve_timebase (s : State) (d : Dir) (v : Nat) : (s.setReserve d v).timebase = s.timebase := by cases d <;> rfl
@[simp] theorem State.setReserve_freeNext (s : State) (d : Dir) (v : Nat) : (s.setReserve d v).freeNext = s.freeNext := by cases d <;> rfl
@[simp] theorem State.setReserve_pending (s : State) (d : Dir) (v : Nat) : (s.setReserve d v).pending = s.pending := by cases d <;> rfl
@[simp] theorem State.port_setReserve (s : State) (d : Dir) (v : Nat) (q : Port) :
    (s.setReserve d v).port q = s.port q := by cases d <;> cases q <;> rfl
@[simp] theorem State.window_setReserve (s : State) (d : Dir) (v : Nat) (d' : Dir) (v' : Fin 16) :
    (s.setReserve d v).window d' v' = s.window d' v' := by cases d <;> cases d' <;> rfl
@[simp] theorem State.entry_setReserve (s : State) (d : Dir) (v : Nat) (i : Fin 64) :
    (s.setReserve d v).entry i = s.entry i := by cases d <;> rfl
@[simp] theorem State.lock_setReserve (s : State) (d : Dir) (v : Nat) (j : Fin 8) :
    (s.setReserve d v).lock j = s.lock j := by cases d <;> rfl
@[simp] theorem State.tcto_setReserve (s : State) (d : Dir) (v : Nat) (y : Dir) :
    (s.setReserve d v).tcto y = s.tcto y := by cases d <;> cases y <;> rfl
@[simp] theorem State.noticeClass_setReserve (s : State) (d : Dir) (v : Nat) (c : NoticeKind) :
    (s.setReserve d v).noticeClass c = s.noticeClass c := by cases d <;> rfl
@[simp] theorem State.inUse_setReserve (s : State) (d : Dir) (v : Nat) (y : Dir) :
    (s.setReserve d v).inUse y = s.inUse y := by cases d <;> rfl

@[simp] theorem State.setTcto_resetN (s : State) (d : Dir) (v : TCto) : (s.setTcto d v).resetN = s.resetN := by cases d <;> rfl
@[simp] theorem State.setTcto_portU (s : State) (d : Dir) (v : TCto) : (s.setTcto d v).portU = s.portU := by cases d <;> rfl
@[simp] theorem State.setTcto_portD (s : State) (d : Dir) (v : TCto) : (s.setTcto d v).portD = s.portD := by cases d <;> rfl
@[simp] theorem State.setTcto_down (s : State) (d : Dir) (v : TCto) : (s.setTcto d v).down = s.down := by cases d <;> rfl
@[simp] theorem State.setTcto_up (s : State) (d : Dir) (v : TCto) : (s.setTcto d v).up = s.up := by cases d <;> rfl
@[simp] theorem State.setTcto_entries (s : State) (d : Dir) (v : TCto) : (s.setTcto d v).entries = s.entries := by cases d <;> rfl
@[simp] theorem State.setTcto_doneOrder (s : State) (d : Dir) (v : TCto) : (s.setTcto d v).doneOrder = s.doneOrder := by cases d <;> rfl
@[simp] theorem State.setTcto_reserveDown (s : State) (d : Dir) (v : TCto) : (s.setTcto d v).reserveDown = s.reserveDown := by cases d <;> rfl
@[simp] theorem State.setTcto_reserveUp (s : State) (d : Dir) (v : TCto) : (s.setTcto d v).reserveUp = s.reserveUp := by cases d <;> rfl
@[simp] theorem State.setTcto_locks (s : State) (d : Dir) (v : TCto) : (s.setTcto d v).locks = s.locks := by cases d <;> rfl
@[simp] theorem State.setTcto_notices (s : State) (d : Dir) (v : TCto) : (s.setTcto d v).notices = s.notices := by cases d <;> rfl
@[simp] theorem State.setTcto_managers (s : State) (d : Dir) (v : TCto) : (s.setTcto d v).managers = s.managers := by cases d <;> rfl
@[simp] theorem State.setTcto_timebase (s : State) (d : Dir) (v : TCto) : (s.setTcto d v).timebase = s.timebase := by cases d <;> rfl
@[simp] theorem State.setTcto_freeNext (s : State) (d : Dir) (v : TCto) : (s.setTcto d v).freeNext = s.freeNext := by cases d <;> rfl
@[simp] theorem State.setTcto_pending (s : State) (d : Dir) (v : TCto) : (s.setTcto d v).pending = s.pending := by cases d <;> rfl
@[simp] theorem State.port_setTcto (s : State) (d : Dir) (v : TCto) (q : Port) :
    (s.setTcto d v).port q = s.port q := by cases d <;> cases q <;> rfl
@[simp] theorem State.window_setTcto (s : State) (d : Dir) (v : TCto) (d' : Dir) (v' : Fin 16) :
    (s.setTcto d v).window d' v' = s.window d' v' := by cases d <;> cases d' <;> rfl
@[simp] theorem State.entry_setTcto (s : State) (d : Dir) (v : TCto) (i : Fin 64) :
    (s.setTcto d v).entry i = s.entry i := by cases d <;> rfl
@[simp] theorem State.lock_setTcto (s : State) (d : Dir) (v : TCto) (j : Fin 8) :
    (s.setTcto d v).lock j = s.lock j := by cases d <;> rfl
@[simp] theorem State.reserve_setTcto (s : State) (d : Dir) (v : TCto) (y : Dir) :
    (s.setTcto d v).reserve y = s.reserve y := by cases d <;> cases y <;> rfl
@[simp] theorem State.noticeClass_setTcto (s : State) (d : Dir) (v : TCto) (c : NoticeKind) :
    (s.setTcto d v).noticeClass c = s.noticeClass c := by cases d <;> rfl
@[simp] theorem State.inUse_setTcto (s : State) (d : Dir) (v : TCto) (y : Dir) :
    (s.setTcto d v).inUse y = s.inUse y := by cases d <;> rfl

@[simp] theorem State.drawn_resetN (s : State) (n : Nat) : (s.drawn n).resetN = s.resetN := by rfl
@[simp] theorem State.drawn_portU (s : State) (n : Nat) : (s.drawn n).portU = s.portU := by rfl
@[simp] theorem State.drawn_portD (s : State) (n : Nat) : (s.drawn n).portD = s.portD := by rfl
@[simp] theorem State.drawn_down (s : State) (n : Nat) : (s.drawn n).down = s.down := by rfl
@[simp] theorem State.drawn_up (s : State) (n : Nat) : (s.drawn n).up = s.up := by rfl
@[simp] theorem State.drawn_entries (s : State) (n : Nat) : (s.drawn n).entries = s.entries := by rfl
@[simp] theorem State.drawn_doneOrder (s : State) (n : Nat) : (s.drawn n).doneOrder = s.doneOrder := by rfl
@[simp] theorem State.drawn_reserveDown (s : State) (n : Nat) : (s.drawn n).reserveDown = s.reserveDown := by rfl
@[simp] theorem State.drawn_reserveUp (s : State) (n : Nat) : (s.drawn n).reserveUp = s.reserveUp := by rfl
@[simp] theorem State.drawn_tctoDown (s : State) (n : Nat) : (s.drawn n).tctoDown = s.tctoDown := by rfl
@[simp] theorem State.drawn_tctoUp (s : State) (n : Nat) : (s.drawn n).tctoUp = s.tctoUp := by rfl
@[simp] theorem State.drawn_locks (s : State) (n : Nat) : (s.drawn n).locks = s.locks := by rfl
@[simp] theorem State.drawn_notices (s : State) (n : Nat) : (s.drawn n).notices = s.notices := by rfl
@[simp] theorem State.drawn_managers (s : State) (n : Nat) : (s.drawn n).managers = s.managers := by rfl
@[simp] theorem State.drawn_timebase (s : State) (n : Nat) : (s.drawn n).timebase = s.timebase := by rfl
@[simp] theorem State.drawn_pending (s : State) (n : Nat) : (s.drawn n).pending = s.pending := by rfl
@[simp] theorem State.port_drawn (s : State) (n : Nat) (q : Port) :
    (s.drawn n).port q = s.port q := by cases q <;> rfl
@[simp] theorem State.window_drawn (s : State) (n : Nat) (d' : Dir) (v' : Fin 16) :
    (s.drawn n).window d' v' = s.window d' v' := by cases d' <;> rfl
@[simp] theorem State.entry_drawn (s : State) (n : Nat) (i : Fin 64) :
    (s.drawn n).entry i = s.entry i := by rfl
@[simp] theorem State.lock_drawn (s : State) (n : Nat) (j : Fin 8) :
    (s.drawn n).lock j = s.lock j := by rfl
@[simp] theorem State.reserve_drawn (s : State) (n : Nat) (y : Dir) :
    (s.drawn n).reserve y = s.reserve y := by cases y <;> rfl
@[simp] theorem State.tcto_drawn (s : State) (n : Nat) (y : Dir) :
    (s.drawn n).tcto y = s.tcto y := by cases y <;> rfl
@[simp] theorem State.noticeClass_drawn (s : State) (n : Nat) (c : NoticeKind) :
    (s.drawn n).noticeClass c = s.noticeClass c := by rfl
@[simp] theorem State.inUse_drawn (s : State) (n : Nat) (y : Dir) :
    (s.drawn n).inUse y = s.inUse y := by rfl

/-! ## The queue of commands -/

@[simp] theorem State.port_pending (s : State) (l : List Instr) (q : Port) :
    State.port { s with pending := l } q = s.port q := by cases q <;> rfl
@[simp] theorem State.window_pending (s : State) (l : List Instr) (d' : Dir) (v' : Fin 16) :
    State.window { s with pending := l } d' v' = s.window d' v' := by cases d' <;> rfl
@[simp] theorem State.entry_pending (s : State) (l : List Instr) (i : Fin 64) :
    State.entry { s with pending := l } i = s.entry i := by rfl
@[simp] theorem State.lock_pending (s : State) (l : List Instr) (j : Fin 8) :
    State.lock { s with pending := l } j = s.lock j := by rfl
@[simp] theorem State.reserve_pending (s : State) (l : List Instr) (y : Dir) :
    State.reserve { s with pending := l } y = s.reserve y := by cases y <;> rfl
@[simp] theorem State.tcto_pending (s : State) (l : List Instr) (y : Dir) :
    State.tcto { s with pending := l } y = s.tcto y := by cases y <;> rfl
@[simp] theorem State.noticeClass_pending (s : State) (l : List Instr) (c : NoticeKind) :
    State.noticeClass { s with pending := l } c = s.noticeClass c := by rfl
@[simp] theorem State.inUse_pending (s : State) (l : List Instr) (y : Dir) :
    State.inUse { s with pending := l } y = s.inUse y := by rfl

end Sys2Proof.Machine
end

