-- ==== Sys2Proof/Laws/Ops.lean ====
section
/-! SUPPORT. What the shared operations can do, said once: vectors and free orders, raises, completions placed, packets queued and flushed, windows' counts. -/

namespace Sys2Proof.Machine

/-! ## Replacements of different parts commute -/

theorem State.setPort_setWindow (s : State) (p : Port) (x : PortState) (t : Dir) (w : Fin 16) (y : Window) :
    (s.setWindow t w y).setPort p x = (s.setPort p x).setWindow t w y := by cases p <;> cases t <;> rfl

theorem State.setPort_setEntry (s : State) (p : Port) (x : PortState) (e : Fin 64) (y : Option Entry) :
    (s.setEntry e y).setPort p x = (s.setPort p x).setEntry e y := by cases p <;> rfl

theorem State.setPort_setLock (s : State) (p : Port) (x : PortState) (k : Fin 8) (y : Lock) :
    (s.setLock k y).setPort p x = (s.setPort p x).setLock k y := by cases p <;> rfl

theorem State.setWindow_setEntry (s : State) (t : Dir) (w : Fin 16) (x : Window) (e : Fin 64) (y : Option Entry) :
    (s.setEntry e y).setWindow t w x = (s.setWindow t w x).setEntry e y := by cases t <;> rfl

/-! ## Vectors and free orders -/

@[simp] theorem mapVector_getElem {α β : Type} {n : Nat} (f : α → β) (v : Vector α n) (i : Nat) (h : i < n) :
    (mapVector f v)[i] = f v[i] := by
  simp [mapVector]

@[simp] theorem mapVector_toList {α β : Type} {n : Nat} (f : α → β) (v : Vector α n) :
    (mapVector f v).toList = v.toList.map f := by
  simp [mapVector]

/-- A list with an element put in is the list with it in front, in another order. -/
theorem insertAt_perm {α : Type} (i : Nat) (x : α) (l : List α) : (insertAt i x l).Perm (x :: l) := by
  unfold insertAt
  exact List.perm_middle.trans (by rw [List.take_append_drop])

/-- A free order only reorders. -/
theorem freeArrange_perm {α : Type} (n : Nat) (l : List α) : (freeArrange n l).Perm l := by
  induction l with
  | nil => exact List.Perm.refl _
  | cons x xs ih =>
    unfold freeArrange
    split
    · next h => rw [h] at ih; exact ih.cons x
    · next y ys h => rw [h] at ih; exact (insertAt_perm _ x _).trans (ih.cons x)

theorem mem_freeArrange {α : Type} (n : Nat) (l : List α) (a : α) : a ∈ freeArrange n l ↔ a ∈ l :=
  (freeArrange_perm n l).mem_iff

@[simp] theorem freeArrange_nil {α : Type} (n : Nat) : freeArrange n ([] : List α) = [] := rfl

@[simp] theorem freeArrange_singleton {α : Type} (n : Nat) (x : α) : freeArrange n [x] = [x] := rfl

/-- A free merge keeps every element. -/
theorem freeMergeAux_perm {α : Type} (n fuel : Nat) (xs ys : List α) : (freeMergeAux n fuel xs ys).Perm (xs ++ ys) := by
  induction fuel generalizing xs ys with
  | zero => exact List.Perm.refl _
  | succ fuel ih =>
    cases xs with
    | nil => simp [freeMergeAux]
    | cons x xs' =>
      cases ys with
      | nil => simp [freeMergeAux]
      | cons y ys' =>
        rw [freeMergeAux]
        split
        · exact (ih xs' (y :: ys')).cons x
        · exact ((ih (x :: xs') ys').cons y).trans List.perm_middle.symm

theorem freeMerge_perm {α : Type} (n : Nat) (xs ys : List α) : (freeMerge n xs ys).Perm (xs ++ ys) :=
  freeMergeAux_perm n _ xs ys

theorem freeMergeAux_nil_right {α : Type} (n fuel : Nat) (xs : List α) : freeMergeAux n fuel xs [] = xs := by
  cases fuel with
  | zero => simp [freeMergeAux]
  | succ fuel => cases xs <;> rfl

/-- Nothing to merge with: the order stands. -/
@[simp] theorem freeMerge_nil_right {α : Type} (n : Nat) (xs : List α) : freeMerge n xs [] = xs :=
  freeMergeAux_nil_right n _ xs

@[simp] theorem freeMerge_nil_left {α : Type} (n : Nat) (ys : List α) : freeMerge n [] ys = ys := by
  cases ys <;> simp [freeMerge, freeMergeAux]

/-- Each of two merged lists keeps its own order (R161). -/
theorem freeMergeAux_sublist {α : Type} (n fuel : Nat) (xs ys : List α) (h : xs.length + ys.length ≤ fuel) :
    xs.Sublist (freeMergeAux n fuel xs ys) ∧ ys.Sublist (freeMergeAux n fuel xs ys) := by
  induction fuel generalizing xs ys with
  | zero => simp [freeMergeAux]
  | succ fuel ih =>
    cases xs with
    | nil => simp [freeMergeAux]
    | cons x xs' =>
      cases ys with
      | nil => simp [freeMergeAux]
      | cons y ys' =>
        simp only [List.length_cons] at h
        rw [freeMergeAux]
        split
        · have := ih xs' (y :: ys') (by simp only [List.length_cons]; omega)
          exact ⟨this.1.cons_cons x, this.2.cons x⟩
        · have := ih (x :: xs') ys' (by simp only [List.length_cons]; omega)
          exact ⟨this.1.cons y, this.2.cons_cons y⟩

theorem freeMerge_sublist_left {α : Type} (n : Nat) (xs ys : List α) : xs.Sublist (freeMerge n xs ys) :=
  (freeMergeAux_sublist n _ xs ys (Nat.le_refl _)).1

theorem freeMerge_sublist_right {α : Type} (n : Nat) (xs ys : List α) : ys.Sublist (freeMerge n xs ys) :=
  (freeMergeAux_sublist n _ xs ys (Nat.le_refl _)).2

/-- A split of raises keeps them all, in their order. -/
theorem freeSplit_append (n : Nat) (es : List Raise) : (freeSplit n es).1 ++ (freeSplit n es).2 = es := by
  unfold freeSplit
  split
  · rfl
  · exact List.take_append_drop _ _

@[simp] theorem freeSplit_nil (n : Nat) : freeSplit n [] = ([], []) := rfl

/-! ## Raises (R160) -/

/-- What a raise can do: nothing, one loss counted, or one record at the tail. -/
theorem raise_cases (x : Raise) (s : State) :
    ((s.noticeClass x.kind = .off ∨ s.notices.targetPort = none) ∧ raise x s = s) ∨
    (s.noticeClass x.kind ≠ .off ∧ s.notices.targetPort ≠ none ∧ 16 ≤ s.notices.queue.length ∧
      raise x s = { s with notices := s.notices.dropped 1 1 }) ∨
    (s.noticeClass x.kind ≠ .off ∧ s.notices.targetPort ≠ none ∧ s.notices.queue.length < 16 ∧
      raise x s = { s with notices := { s.notices with queue := s.notices.queue ++
        [{ kind := x.kind, cls := s.noticeClass x.kind, timestamp := s.timebase.msCount, details := x.details }] } }) := by
  unfold raise
  split
  · next h => exact .inl ⟨.inl h, rfl⟩
  · next h _ => exact .inl ⟨.inr h, rfl⟩
  · next ht hc =>
    split
    · next hq => exact .inr (.inl ⟨hc, by simp [ht], hq, rfl⟩)
    · next hq => exact .inr (.inr ⟨hc, by simp [ht], by omega, rfl⟩)

/-- A raise changes the notice unit only: its queue and its two counts. -/
theorem raise_eq (x : Raise) (s : State) :
    raise x s = { s with notices := { s.notices with
      queue := (raise x s).notices.queue
      droppedSince := (raise x s).notices.droppedSince
      droppedTotal := (raise x s).notices.droppedTotal } } := by
  rcases raise_cases x s with ⟨-, h⟩ | ⟨-, -, -, h⟩ | ⟨-, -, -, h⟩ <;> simp only [h, NoticeUnit.dropped]

/-- Raises judged in turn change the notice unit only. -/
theorem raiseAll_eq (xs : List Raise) (s : State) :
    raiseAll xs s = { s with notices := { s.notices with
      queue := (raiseAll xs s).notices.queue
      droppedSince := (raiseAll xs s).notices.droppedSince
      droppedTotal := (raiseAll xs s).notices.droppedTotal } } := by
  induction xs generalizing s with
  | nil => rfl
  | cons x xs ih =>
    show raiseAll xs (raise x s) = { s with notices := { s.notices with
      queue := (raiseAll xs (raise x s)).notices.queue
      droppedSince := (raiseAll xs (raise x s)).notices.droppedSince
      droppedTotal := (raiseAll xs (raise x s)).notices.droppedTotal } }
    rw [ih (raise x s), raise_eq x s]

@[simp] theorem raiseAll_nil (s : State) : raiseAll [] s = s := rfl

theorem raiseAll_cons (x : Raise) (xs : List Raise) (s : State) : raiseAll (x :: xs) s = raiseAll xs (raise x s) := rfl

theorem raiseAll_append (xs ys : List Raise) (s : State) : raiseAll (xs ++ ys) s = raiseAll ys (raiseAll xs s) := by
  simp [raiseAll, List.foldl_append]

@[simp] theorem raise_resetN (x : Raise) (s : State) : (raise x s).resetN = s.resetN := by rw [raise_eq x s]
@[simp] theorem raise_portU (x : Raise) (s : State) : (raise x s).portU = s.portU := by rw [raise_eq x s]
@[simp] theorem raise_portD (x : Raise) (s : State) : (raise x s).portD = s.portD := by rw [raise_eq x s]
@[simp] theorem raise_down (x : Raise) (s : State) : (raise x s).down = s.down := by rw [raise_eq x s]
@[simp] theorem raise_up (x : Raise) (s : State) : (raise x s).up = s.up := by rw [raise_eq x s]
@[simp] theorem raise_entries (x : Raise) (s : State) : (raise x s).entries = s.entries := by rw [raise_eq x s]
@[simp] theorem raise_doneOrder (x : Raise) (s : State) : (raise x s).doneOrder = s.doneOrder := by rw [raise_eq x s]
@[simp] theorem raise_reserveDown (x : Raise) (s : State) : (raise x s).reserveDown = s.reserveDown := by rw [raise_eq x s]
@[simp] theorem raise_reserveUp (x : Raise) (s : State) : (raise x s).reserveUp = s.reserveUp := by rw [raise_eq x s]
@[simp] theorem raise_tctoDown (x : Raise) (s : State) : (raise x s).tctoDown = s.tctoDown := by rw [raise_eq x s]
@[simp] theorem raise_tctoUp (x : Raise) (s : State) : (raise x s).tctoUp = s.tctoUp := by rw [raise_eq x s]
@[simp] theorem raise_locks (x : Raise) (s : State) : (raise x s).locks = s.locks := by rw [raise_eq x s]
@[simp] theorem raise_managers (x : Raise) (s : State) : (raise x s).managers = s.managers := by rw [raise_eq x s]
@[simp] theorem raise_timebase (x : Raise) (s : State) : (raise x s).timebase = s.timebase := by rw [raise_eq x s]
@[simp] theorem raise_freeNext (x : Raise) (s : State) : (raise x s).freeNext = s.freeNext := by rw [raise_eq x s]
@[simp] theorem raise_pending (x : Raise) (s : State) : (raise x s).pending = s.pending := by rw [raise_eq x s]
@[simp] theorem raise_classes (x : Raise) (s : State) : (raise x s).notices.classes = s.notices.classes := by rw [raise_eq x s]
@[simp] theorem raise_targetPort (x : Raise) (s : State) : (raise x s).notices.targetPort = s.notices.targetPort := by rw [raise_eq x s]
@[simp] theorem raise_targetNode (x : Raise) (s : State) : (raise x s).notices.targetNode = s.notices.targetNode := by rw [raise_eq x s]
@[simp] theorem raise_nextSequence (x : Raise) (s : State) : (raise x s).notices.nextSequence = s.notices.nextSequence := by rw [raise_eq x s]
@[simp] theorem raise_port (x : Raise) (s : State) (q : Port) : (raise x s).port q = s.port q := by
  rw [raise_eq x s]; cases q <;> rfl
@[simp] theorem raise_window (x : Raise) (s : State) (d : Dir) (v : Fin 16) : (raise x s).window d v = s.window d v := by
  rw [raise_eq x s]; cases d <;> rfl
@[simp] theorem raise_entry (x : Raise) (s : State) (i : Fin 64) : (raise x s).entry i = s.entry i := by
  rw [raise_eq x s]; rfl
@[simp] theorem raise_lock (x : Raise) (s : State) (j : Fin 8) : (raise x s).lock j = s.lock j := by
  rw [raise_eq x s]; rfl
@[simp] theorem raise_reserve (x : Raise) (s : State) (y : Dir) : (raise x s).reserve y = s.reserve y := by
  rw [raise_eq x s]; cases y <;> rfl
@[simp] theorem raise_tcto (x : Raise) (s : State) (y : Dir) : (raise x s).tcto y = s.tcto y := by
  rw [raise_eq x s]; cases y <;> rfl
@[simp] theorem raise_noticeClass (x : Raise) (s : State) (c : NoticeKind) : (raise x s).noticeClass c = s.noticeClass c := by
  rw [raise_eq x s]; rfl
@[simp] theorem raise_inUse (x : Raise) (s : State) (y : Dir) : (raise x s).inUse y = s.inUse y := by
  rw [raise_eq x s]; rfl

@[simp] theorem raiseAll_resetN (xs : List Raise) (s : State) : (raiseAll xs s).resetN = s.resetN := by rw [raiseAll_eq xs s]
@[simp] theorem raiseAll_portU (xs : List Raise) (s : State) : (raiseAll xs s).portU = s.portU := by rw [raiseAll_eq xs s]
@[simp] theorem raiseAll_portD (xs : List Raise) (s : State) : (raiseAll xs s).portD = s.portD := by rw [raiseAll_eq xs s]
@[simp] theorem raiseAll_down (xs : List Raise) (s : State) : (raiseAll xs s).down = s.down := by rw [raiseAll_eq xs s]
@[simp] theorem raiseAll_up (xs : List Raise) (s : State) : (raiseAll xs s).up = s.up := by rw [raiseAll_eq xs s]
@[simp] theorem raiseAll_entries (xs : List Raise) (s : State) : (raiseAll xs s).entries = s.entries := by rw [raiseAll_eq xs s]
@[simp] theorem raiseAll_doneOrder (xs : List Raise) (s : State) : (raiseAll xs s).doneOrder = s.doneOrder := by rw [raiseAll_eq xs s]
@[simp] theorem raiseAll_reserveDown (xs : List Raise) (s : State) : (raiseAll xs s).reserveDown = s.reserveDown := by rw [raiseAll_eq xs s]
@[simp] theorem raiseAll_reserveUp (xs : List Raise) (s : State) : (raiseAll xs s).reserveUp = s.reserveUp := by rw [raiseAll_eq xs s]
@[simp] theorem raiseAll_tctoDown (xs : List Raise) (s : State) : (raiseAll xs s).tctoDown = s.tctoDown := by rw [raiseAll_eq xs s]
@[simp] theorem raiseAll_tctoUp (xs : List Raise) (s : State) : (raiseAll xs s).tctoUp = s.tctoUp := by rw [raiseAll_eq xs s]
@[simp] theorem raiseAll_locks (xs : List Raise) (s : State) : (raiseAll xs s).locks = s.locks := by rw [raiseAll_eq xs s]
@[simp] theorem raiseAll_managers (xs : List Raise) (s : State) : (raiseAll xs s).managers = s.managers := by rw [raiseAll_eq xs s]
@[simp] theorem raiseAll_timebase (xs : List Raise) (s : State) : (raiseAll xs s).timebase = s.timebase := by rw [raiseAll_eq xs s]
@[simp] theorem raiseAll_freeNext (xs : List Raise) (s : State) : (raiseAll xs s).freeNext = s.freeNext := by rw [raiseAll_eq xs s]
@[simp] theorem raiseAll_pending (xs : List Raise) (s : State) : (raiseAll xs s).pending = s.pending := by rw [raiseAll_eq xs s]
@[simp] theorem raiseAll_classes (xs : List Raise) (s : State) : (raiseAll xs s).notices.classes = s.notices.classes := by rw [raiseAll_eq xs s]
@[simp] theorem raiseAll_targetPort (xs : List Raise) (s : State) : (raiseAll xs s).notices.targetPort = s.notices.targetPort := by rw [raiseAll_eq xs s]
@[simp] theorem raiseAll_targetNode (xs : List Raise) (s : State) : (raiseAll xs s).notices.targetNode = s.notices.targetNode := by rw [raiseAll_eq xs s]
@[simp] theorem raiseAll_nextSequence (xs : List Raise) (s : State) : (raiseAll xs s).notices.nextSequence = s.notices.nextSequence := by rw [raiseAll_eq xs s]
@[simp] theorem raiseAll_port (xs : List Raise) (s : State) (q : Port) : (raiseAll xs s).port q = s.port q := by
  rw [raiseAll_eq xs s]; cases q <;> rfl
@[simp] theorem raiseAll_window (xs : List Raise) (s : State) (d : Dir) (v : Fin 16) : (raiseAll xs s).window d v = s.window d v := by
  rw [raiseAll_eq xs s]; cases d <;> rfl
@[simp] theorem raiseAll_entry (xs : List Raise) (s : State) (i : Fin 64) : (raiseAll xs s).entry i = s.entry i := by
  rw [raiseAll_eq xs s]; rfl
@[simp] theorem raiseAll_lock (xs : List Raise) (s : State) (j : Fin 8) : (raiseAll xs s).lock j = s.lock j := by
  rw [raiseAll_eq xs s]; rfl
@[simp] theorem raiseAll_reserve (xs : List Raise) (s : State) (y : Dir) : (raiseAll xs s).reserve y = s.reserve y := by
  rw [raiseAll_eq xs s]; cases y <;> rfl
@[simp] theorem raiseAll_tcto (xs : List Raise) (s : State) (y : Dir) : (raiseAll xs s).tcto y = s.tcto y := by
  rw [raiseAll_eq xs s]; cases y <;> rfl
@[simp] theorem raiseAll_noticeClass (xs : List Raise) (s : State) (c : NoticeKind) : (raiseAll xs s).noticeClass c = s.noticeClass c := by
  rw [raiseAll_eq xs s]; rfl
@[simp] theorem raiseAll_inUse (xs : List Raise) (s : State) (y : Dir) : (raiseAll xs s).inUse y = s.inUse y := by
  rw [raiseAll_eq xs s]; rfl
/-- A queue within its 16 records stays so (R164). -/
theorem raise_queue_le (x : Raise) (s : State) (h : s.notices.queue.length ≤ 16) : (raise x s).notices.queue.length ≤ 16 := by
  rcases raise_cases x s with ⟨-, hr⟩ | ⟨-, -, -, hr⟩ | ⟨-, -, hq, hr⟩ <;> rw [hr]
  · exact h
  · exact h
  · simpa using hq

/-- Without a target port the queue keeps as it is (R160, case 2). -/
theorem raise_of_no_target (x : Raise) (s : State) (h : s.notices.targetPort = none) : raise x s = s := by
  rcases raise_cases x s with ⟨-, hr⟩ | ⟨-, ht, -, -⟩ | ⟨-, ht, -, -⟩
  · exact hr
  · exact absurd h ht
  · exact absurd h ht

/-- The two counts stay within their saturation (R160). -/
theorem raise_counts_le (x : Raise) (s : State)
    (h : s.notices.droppedSince ≤ 65535 ∧ s.notices.droppedTotal ≤ 4294967295) :
    (raise x s).notices.droppedSince ≤ 65535 ∧ (raise x s).notices.droppedTotal ≤ 4294967295 := by
  rcases raise_cases x s with ⟨-, hr⟩ | ⟨-, -, -, hr⟩ | ⟨-, -, -, hr⟩ <;> rw [hr]
  · exact h
  · exact ⟨Nat.min_le_left _ _, Nat.min_le_left _ _⟩
  · exact h

/-! ## Completions placed (R101) -/

@[simp] theorem place_port_self (p : Port) (c : Completion) (s : State) :
    (place p c s).port p = { s.port p with completions := (s.port p).completions ++ [c] } := by
  simp [place]

@[simp] theorem place_port_ne (p q : Port) (c : Completion) (s : State) (h : q ≠ p) : (place p c s).port q = s.port q := by
  simp [place, h]

@[simp] theorem place_entry (p : Port) (c : Completion) (s : State) (e : Fin 64) : (place p c s).entry e = s.entry e := by
  simp [place]

@[simp] theorem place_window (p : Port) (c : Completion) (s : State) (t : Dir) (w : Fin 16) :
    (place p c s).window t w = s.window t w := by
  simp [place]

@[simp] theorem place_lock (p : Port) (c : Completion) (s : State) (k : Fin 8) : (place p c s).lock k = s.lock k := by
  simp [place]

@[simp] theorem place_notices (p : Port) (c : Completion) (s : State) : (place p c s).notices = s.notices := by
  simp [place]

@[simp] theorem place_doneOrder (p : Port) (c : Completion) (s : State) : (place p c s).doneOrder = s.doneOrder := by
  simp [place]

/-- A completion placed changes no port's link. -/
theorem place_link (p q : Port) (c : Completion) (s : State) : ((place p c s).port q).link = (s.port q).link := by
  by_cases h : q = p
  · subst h; simp
  · simp [h]

/-! ## Egress queues -/

/-- A queue with packets added keeps everything but the queue and the stall timer. -/
theorem PortState.enqueue_eq (x : PortState) (ks : List EgressPacket) :
    x.enqueue ks = { x with egress := x.egress ++ ks, stallTimer := (x.enqueue ks).stallTimer } := by
  simp only [PortState.enqueue]
  split <;> rfl

@[simp] theorem PortState.enqueue_egress (x : PortState) (ks : List EgressPacket) :
    (x.enqueue ks).egress = x.egress ++ ks := by rw [PortState.enqueue_eq]

@[simp] theorem PortState.enqueue_link (x : PortState) (ks : List EgressPacket) : (x.enqueue ks).link = x.link := by
  rw [PortState.enqueue_eq]

@[simp] theorem PortState.enqueue_completions (x : PortState) (ks : List EgressPacket) :
    (x.enqueue ks).completions = x.completions := by rw [PortState.enqueue_eq]

@[simp] theorem PortState.enqueue_ingress (x : PortState) (ks : List EgressPacket) : (x.enqueue ks).ingress = x.ingress := by
  rw [PortState.enqueue_eq]

@[simp] theorem PortState.enqueue_credits (x : PortState) (ks : List EgressPacket) : (x.enqueue ks).credits = x.credits := by
  rw [PortState.enqueue_eq]

/-- The stall timer after packets are added to an UP port: it starts where the queue was empty and no credit is held (R126). -/
theorem PortState.enqueue_stallTimer (x : PortState) (ks : List EgressPacket) (hu : x.link = .up) (hk : ks ≠ []) :
    (x.enqueue ks).stallTimer = if x.egress = [] ∧ x.credits = 0 then x.tStall.ticks else x.stallTimer := by
  cases he : x.egress <;> by_cases hc : x.credits = 0 <;>
    simp [PortState.enqueue, PortState.waitsForCredit, hu, hk, he, hc]

@[simp] theorem PortState.withdraw_link (x : PortState) (e : Fin 64) : (x.withdraw e).link = x.link := rfl

@[simp] theorem PortState.withdraw_completions (x : PortState) (e : Fin 64) : (x.withdraw e).completions = x.completions := rfl

/-- A withdrawn entry has no packet left in the queue (R121). -/
theorem PortState.withdraw_egress (x : PortState) (e i : Fin 64) (n : Nat) (k : SegmentPacket)
    (h : EgressPacket.segment i n k ∈ (x.withdraw e).egress) : i ≠ e ∧ EgressPacket.segment i n k ∈ x.egress := by
  simp [PortState.withdraw, List.mem_filter] at h
  exact ⟨h.2, h.1⟩

/-- The losses of flushed notices change the two dropped counts only (R167). -/
theorem foldl_dropped_eq (ns : List StampedNotice) (u : NoticeUnit) :
    ns.foldl (fun u n => u.dropped (1 + n.dropped) 1) u =
      { u with
        droppedSince := (ns.foldl (fun u n => u.dropped (1 + n.dropped) 1) u).droppedSince
        droppedTotal := (ns.foldl (fun u n => u.dropped (1 + n.dropped) 1) u).droppedTotal } := by
  induction ns generalizing u with
  | nil => rfl
  | cons n ns ih =>
    rw [List.foldl_cons, ih (u.dropped (1 + n.dropped) 1)]
    rfl

theorem countFlushed_eq (ns : List StampedNotice) (s : State) :
    countFlushed ns s = { s with notices := { s.notices with
      droppedSince := (countFlushed ns s).notices.droppedSince
      droppedTotal := (countFlushed ns s).notices.droppedTotal } } := by
  unfold countFlushed
  rw [foldl_dropped_eq]

/-- Two losses counted one after the other are counted as one sum (R160, R167). -/
theorem NoticeUnit.dropped_dropped (u : NoticeUnit) (a b c d : Nat) :
    (u.dropped a b).dropped c d = u.dropped (a + c) (b + d) := by
  simp only [NoticeUnit.dropped, NoticeUnit.mk.injEq, true_and]
  omega

/-! ## Windows' counts (R37, R43) -/

theorem Window.release_eq (w : Window) :
    w.release = { w with state := w.release.state, inFlight := w.inFlight - 1 } := rfl

/-- A failure changes a window's state and fault record only (R40, R41). -/
theorem Window.applyFailure_eq (w : Window) (f : FaultRecord) :
    w.applyFailure f = { w with state := (w.applyFailure f).state, fault := (w.applyFailure f).fault } := by
  unfold Window.applyFailure
  split
  · rfl
  · rfl
  · split <;> rfl
  · split <;> rfl

end Sys2Proof.Machine
end

