-- ==== Sys2Proof/Laws/Settle.lean ====
section
/-! SUPPORT. The end of an event: what settling leaves alone, and the induction by which a property of states survives it. -/

namespace Sys2Proof.Machine

open Sys2Proof.Safety

/-! ## A claim placed (R104) -/

/-- Every way to place a claim adds completions to ports and leaves the rest of them. -/
theorem placeClaim_port (p q : Port) (c : Claim) (s : State) :
    (placeClaim p c s).port q = { s.port q with completions := ((placeClaim p c s).port q).completions } := by
  have hp : ∀ (a : Port) (x : Completion) (t : State), (place a x t).port q =
      { t.port q with completions := ((place a x t).port q).completions } := by
    intro a x t
    by_cases h : q = a
    · subst h; simp
    · simp [h]
  cases c with
  | outbox k =>
    simp only [placeClaim, placeOutbox]
    split
    · rfl
    · rw [hp]; simp
  | expired k =>
    simp only [placeClaim, placeExpired]
    split
    · rfl
    · rw [hp]; simp
  | done e =>
    simp only [placeClaim, deliverDone]
    split
    · rfl
    · next x _ =>
      have hd : ∀ t : State, (deliver e x t).port q = t.port q := by
        intro t
        cases q <;> cases hx : x.dir <;> simp [deliver, releaseWindow, State.port, hx, State.setWindow, State.setEntry]
      rw [hd, hp]

@[simp] theorem placeClaim_link (p q : Port) (c : Claim) (s : State) :
    ((placeClaim p c s).port q).link = (s.port q).link := by rw [placeClaim_port]

@[simp] theorem placeClaim_headWaits (p q : Port) (c : Claim) (s : State) :
    ((placeClaim p c s).port q).headWaits = (s.port q).headWaits := by rw [placeClaim_port]

@[simp] theorem placeClaim_ingress (p q : Port) (c : Claim) (s : State) :
    ((placeClaim p c s).port q).ingress = (s.port q).ingress := by rw [placeClaim_port]

/-! ## Giving out slots -/

/-- A property that every placing keeps holds after the slots are given out. -/
theorem giveOut_induction {P : State → Prop}
    (step : ∀ p c t, nextClaim p t = some c → P t → P (placeClaim p c t)) (fuel : Nat) (s : State) (h : P s) :
    P (giveOut fuel s) := by
  induction fuel generalizing s with
  | zero => exact h
  | succ fuel ih =>
    unfold giveOut
    split
    · next c hc => exact ih _ (step .u c s hc h)
    · split
      · next c hc => exact ih _ (step .d c s hc h)
      · exact h

/-- Where no claim is due a slot, nothing is given out. -/
theorem giveOut_of_slotLaw (fuel : Nat) (s : State) (h : SlotLaw s) : giveOut fuel s = s := by
  cases fuel with
  | zero => rfl
  | succ fuel => simp [giveOut, h .u, h .d]

/-- One claim of one port to give out: it is placed, and what it leads to is given out. -/
theorem giveOut_u (fuel : Nat) (s : State) (c : Claim) (h : nextClaim .u s = some c) :
    giveOut (fuel + 1) s = giveOut fuel (placeClaim .u c s) := by
  simp [giveOut, h]

theorem giveOut_d (fuel : Nat) (s : State) (c : Claim) (hu : nextClaim .u s = none) (h : nextClaim .d s = some c) :
    giveOut (fuel + 1) s = giveOut fuel (placeClaim .d c s) := by
  simp [giveOut, hu, h]

/-- Giving out slots adds completions to a port and leaves the rest of it. -/
theorem giveOut_port (fuel : Nat) (s : State) (q : Port) :
    (giveOut fuel s).port q = { s.port q with completions := ((giveOut fuel s).port q).completions } := by
  refine giveOut_induction (P := fun t => t.port q = { s.port q with completions := (t.port q).completions })
    (fun p c t _ ht => ?_) fuel s rfl
  rw [placeClaim_port, ht]

@[simp] theorem giveOut_headWaits (fuel : Nat) (s : State) (q : Port) :
    ((giveOut fuel s).port q).headWaits = (s.port q).headWaits := by rw [giveOut_port]

/-! ## Heads judged -/

/-- What a head that can be taken is: the first of the buffer, with its disposal's resources at hand. -/
theorem takeable_iff (p : Port) (s : State) :
    takeable p s = true ↔
      ∃ r rest, (s.port p).ingress = r :: rest ∧ atHand p r (disposal p r s) s = true := by
  unfold takeable
  cases (s.port p).ingress <;> simp

/-- The take of a head is its disposal carried out. -/
theorem takeHead_of_cons (p : Port) (s : State) (r : Request) (rest : List Request) (h : (s.port p).ingress = r :: rest) :
    takeHead p s = carryOut p r (disposal p r s) s := by
  simp [takeHead, h]

theorem waitingTake_of_not_waiting (p : Port) (s : State) (h : (s.port p).headWaits = false) : waitingTake p s = false := by
  simp [waitingTake, h]

/-- The head that is taken next waits and can be taken. -/
theorem nextHead_some (s : State) (p : Port) (h : nextHead s = some p) : waitingTake p s = true := by
  unfold nextHead at h
  cases hu : waitingTake .u s <;> cases hd : waitingTake .d s <;> rw [hu, hd] at h
  · cases h
  · cases h; exact hd
  · cases h; exact hu
  · cases p
    · exact hu
    · exact hd

theorem nextHead_of_waitLaw (s : State) (h : WaitLaw s) : nextHead s = none := by
  simp [nextHead, h .u, h .d]

/-- The raises that wait for their judgement do not bear on whether a head can be taken: nothing that the judgement reads is the notice
unit's. -/
theorem takeable_raise (x : Raise) (s : State) (p : Port) : takeable p (raise x s) = takeable p s := by
  rw [raise_eq x s]
  cases p <;> rfl

theorem takeable_raiseAll (xs : List Raise) (s : State) (p : Port) : takeable p (raiseAll xs s) = takeable p s := by
  induction xs generalizing s with
  | nil => rfl
  | cons x xs ih => rw [raiseAll_cons, ih, takeable_raise]

/-- A property that every raise keeps holds after raises judged in turn. -/
theorem raiseAll_induction {P : State → Prop} (raised : ∀ x t, P t → P (raise x t)) (xs : List Raise) (s : State)
    (h : P s) : P (raiseAll xs s) := by
  induction xs generalizing s with
  | nil => exact h
  | cons x xs ih => exact ih _ (raised x s h)

/-- A property that every take, placing, raise and draw keep holds after the waiting heads are judged. -/
theorem judgeWaiting_induction {P : State → Prop}
    (placed : ∀ p c t, nextClaim p t = some c → P t → P (placeClaim p c t))
    (took : ∀ p r rest t, (t.port p).headWaits = true → (t.port p).ingress = r :: rest →
      atHand p r (disposal p r t) t = true → P t → P (carryOut p r (disposal p r t) t).1)
    (raised : ∀ x t, P t → P (raise x t)) (drew : ∀ k t, P t → P (t.drawn k)) (fuel : Nat) (es : List Raise) (s : State)
    (h : P s) : P (judgeWaiting fuel es s) := by
  induction fuel generalizing es s with
  | zero => exact raiseAll_induction raised es s h
  | succ fuel ih =>
    unfold judgeWaiting
    split
    · exact raiseAll_induction raised es s h
    · next p hp =>
      refine ih _ _ (giveOut_induction placed 32 _ (drew 3 _ ?_))
      have hw := nextHead_some s p hp
      simp only [waitingTake, Bool.and_eq_true] at hw
      rw [← takeable_raiseAll (freeSplit (s.freeNext + 1) es).1 s p] at hw
      obtain ⟨r, rest, hr, ha⟩ := (takeable_iff p _).1 hw.2
      rw [takeHead_of_cons p _ r rest hr]
      exact took p r rest _ (by simpa using hw.1) hr ha (raiseAll_induction raised _ s h)

/-- No head to take: the event's raises are judged, and that is all. -/
theorem judgeWaiting_of_waitLaw (fuel : Nat) (es : List Raise) (s : State) (h : WaitLaw s) :
    judgeWaiting fuel es s = raiseAll es s := by
  cases fuel with
  | zero => rfl
  | succ fuel => simp [judgeWaiting, nextHead_of_waitLaw s h]

/-! ## Settling -/

/-- A property that every placing, take, raise and draw keep survives the end of an event. -/
theorem settleWith_induction {P : State → Prop}
    (placed : ∀ p c t, nextClaim p t = some c → P t → P (placeClaim p c t))
    (took : ∀ p r rest t, (t.port p).headWaits = true → (t.port p).ingress = r :: rest →
      atHand p r (disposal p r t) t = true → P t → P (carryOut p r (disposal p r t) t).1)
    (raised : ∀ x t, P t → P (raise x t)) (drew : ∀ k t, P t → P (t.drawn k)) (es : List Raise) (s : State) (h : P s) :
    P (settleWith es s) :=
  judgeWaiting_induction placed took raised drew 2 es _ (giveOut_induction placed 32 s h)

/-- At rest there is nothing to settle but the event's raises. -/
theorem settleWith_of_atRest (es : List Raise) (s : State) (h : AtRest s) : settleWith es s = raiseAll es s := by
  unfold settleWith
  rw [giveOut_of_slotLaw 32 s h.1, judgeWaiting_of_waitLaw 2 es s h.2]

theorem settle_of_atRest (s : State) (h : AtRest s) : settle s = s := settleWith_of_atRest [] s h

theorem quiet_atRest (s : State) (h : Quiet s) : AtRest s :=
  ⟨h.1, fun p => waitingTake_of_not_waiting p s (by cases p; exact h.2.1; exact h.2.2)⟩

theorem settleWith_of_quiet (es : List Raise) (s : State) (h : Quiet s) : settleWith es s = raiseAll es s :=
  settleWith_of_atRest es s (quiet_atRest s h)

theorem settle_of_quiet (s : State) (h : Quiet s) : settle s = s := settle_of_atRest s (quiet_atRest s h)

/-- With no head waiting, settling is giving out the slots and judging the event's raises. -/
theorem settleWith_of_heads (es : List Raise) (s : State) (hu : s.portU.headWaits = false) (hd : s.portD.headWaits = false) :
    settleWith es s = raiseAll es (giveOut 32 s) := by
  unfold settleWith
  refine judgeWaiting_of_waitLaw 2 es _ (fun p => waitingTake_of_not_waiting p _ ?_)
  rw [giveOut_headWaits]
  cases p
  · exact hu
  · exact hd

theorem settle_of_heads (s : State) (hu : s.portU.headWaits = false) (hd : s.portD.headWaits = false) :
    settle s = giveOut 32 s := settleWith_of_heads [] s hu hd

/-- What the slots' law reads: links, completion queues, locks, entries and the done order. -/
theorem nextClaim_congr (p : Port) (s t : State) (hl : (t.port p).link = (s.port p).link)
    (hc : (t.port p).completions.length = (s.port p).completions.length) (hk : ∀ k, t.lock k = s.lock k)
    (he : ∀ e, t.entry e = s.entry e) (hd : t.doneOrder = s.doneOrder) : nextClaim p t = nextClaim p s := by
  have h1 : lockClaim p t = lockClaim p s := by
    funext k
    simp [lockClaim, hk]
  have h2 : doneClaims p t = doneClaims p s := by
    funext e
    simp [doneClaims, he]
  simp [nextClaim, slotFree, topClaim, hl, hc, h1, h2, hd]

/-- A raise leaves the part as quiet as it was. -/
theorem quiet_raise (x : Raise) (s : State) (h : Quiet s) : Quiet (raise x s) := by
  refine ⟨fun p => ?_, by simpa using h.2.1, by simpa using h.2.2⟩
  rw [nextClaim_congr p s (raise x s) (by simp) (by simp) (by simp) (by simp) (by simp)]
  exact h.1 p

end Sys2Proof.Machine
end

