-- ==== Sys2Proof/Laws/Commands.lean ====
section
/-! SUPPORT. What the commands' shared steps can do: the take of a head, the request rows at their port, results and deliveries of entries, and the bytes of numbers. -/

namespace Sys2Proof.Machine

open Sys2Proof.Safety

/-- The spec lets no command stop the part: every command answers a next state. -/
theorem exec_answers_next (c : Instr) (s : State) : ∃ t, exec c s = .next t := by
  cases c <;>
    simp only [exec, execPowerUpReset, execResetNDeassertion, execLinkEstablishment, execLinkLoss, execRequestArrival,
      execCompletionArrival, execNoticeArrival, execCreditArrival, execUndefinedPacketArrival, execCrdDeparture,
      execCompletionDeparture, execEgressDeparture, execAdmissionJudgement, execNoticePlacement, execDoneEntryDelivery,
      execOutboxGrantPlacing, execExpiryAnswerPlacing, execCompletionDeadlineExpiry, execQuarantineExpiry,
      execStallTimerExpiry, execLeaseExpiry, execWaitExpiry, execAcquire, execRelease, execBreakLock, execTleaseWrite,
      execTwaitWrite, execEnable, execDisable, execClearFault, execWindowFieldWrite, execHitCountClear,
      execNodeIdentityWrite, execTstallWrite, execReserveWrite, execTctoWrite, execClassWrite, execTargetPortWrite,
      execTargetNodeWrite, execManagerEntryWrite, execDividerWrite, execSoftReset, execRegisterWrite,
      execMillisecondCountIncrement] <;>
    (repeat' split) <;> exact ⟨_, rfl⟩

/-- A step always answers a next state. -/
theorem step_answers_next (s : State) : ∃ t, step s = .next t := by
  unfold step
  split
  · exact exec_answers_next _ _
  · exact ⟨_, rfl⟩

/-! ## Requests at their port -/

/-- The take (R50), in the words of the statements. -/
theorem take_eq_headTaken (p : Port) (counted : Bool) (s : State) : take p counted s = headTaken p counted s := by
  simp [take, headTaken]

/-- A row that is a request is that request presented at its port (log 5). -/
theorem exec_requestOf (c : Instr) (p : Port) (r : Request) (s : State) (h : requestOf c s = some (p, r)) :
    exec c s = .next (presentRequest p r s) := by
  cases c with
  | windowFieldWrite q t w f =>
    cases f <;>
      (simp only [requestOf, Option.some.injEq, Prod.mk.injEq] at h
       obtain ⟨rfl, rfl⟩ := h
       rfl)
  | _ =>
    first
      | (simp only [requestOf, Option.some.injEq, Prod.mk.injEq] at h
         obtain ⟨rfl, rfl⟩ := h
         rfl)
      | exact absurd h (by simp [requestOf])

/-- What the admission of a port without requests does: nothing. -/
theorem judgeHead_of_empty (p : Port) (s : State) (h : (s.port p).ingress = []) : judgeHead p s = s := by
  simp [judgeHead, h]

/-- A head that can be taken is taken, and the event settles with what the take raises. -/
theorem judgeHead_of_take (p : Port) (s : State) (r : Request) (rest : List Request)
    (h : (s.port p).ingress = r :: rest) (ha : atHand p r (disposal p r s) s = true) :
    judgeHead p s = settleWith (carryOut p r (disposal p r s) s).2 (carryOut p r (disposal p r s) s).1 := by
  simp [judgeHead, takeable, takeHead, h, ha]

/-- A head whose resources are not at hand waits from here on. -/
theorem judgeHead_of_wait (p : Port) (s : State) (r : Request) (rest : List Request)
    (h : (s.port p).ingress = r :: rest) (ha : atHand p r (disposal p r s) s = false) :
    judgeHead p s = settle (headWaiting p s) := by
  simp [judgeHead, takeable, headWaiting, h, ha]

/-- A request presented at an open port with an empty buffer becomes the head and is judged. -/
theorem presentRequest_of_empty (p : Port) (r : Request) (s : State) (hl : (s.port p).link ≠ .down)
    (h : (s.port p).ingress = []) :
    presentRequest p r s = judgeHead p (s.setPort p { s.port p with ingress := [r] }) := by
  simp [presentRequest, storeRequest, hl, h]

/-! ## Results and deliveries of entries -/

/-- An entry that is open and resolved takes its result; any other is left alone. -/
theorem takeResult_of_not_due (e : Fin 64) (s : State)
    (h : ∀ x, s.entry e = some x → ¬ ((x.state = .pending ∨ x.state = .issued) ∧ x.resolved = true)) :
    takeResult e s = (s, []) := by
  unfold takeResult
  split
  · rfl
  · next x hx => rw [if_neg (h x hx)]

/-- A READ or CONFIRMED entry that is not orphaned becomes DONE, last in the done order (R90). -/
theorem takeResult_done (e : Fin 64) (s : State) (x : Entry) (hx : s.entry e = some x)
    (h : (x.state = .pending ∨ x.state = .issued) ∧ x.resolved = true) (hk : x.kind ≠ .absorbed)
    (ho : x.orphaned = false) :
    takeResult e s =
      ({ s.setEntry e (some { x with result := some x.formResult, deadline := none, state := .done }) with
          doneOrder := s.doneOrder ++ [e] }, []) := by
  unfold takeResult
  simp only [hx, if_pos h]
  cases hkk : x.kind
  · simp [ho]
  · simp [ho]
  · exact absurd hkk hk

/-- An orphaned READ or CONFIRMED entry is delivered without an answer (R92). -/
theorem takeResult_orphaned (e : Fin 64) (s : State) (x : Entry) (hx : s.entry e = some x)
    (h : (x.state = .pending ∨ x.state = .issued) ∧ x.resolved = true) (hk : x.kind ≠ .absorbed)
    (ho : x.orphaned = true) :
    takeResult e s = (deliver e { x with result := some x.formResult, deadline := none } s, []) := by
  unfold takeResult
  simp only [hx, if_pos h]
  cases hkk : x.kind
  · simp [ho]
  · simp [ho]
  · exact absurd hkk hk

/-- A delivery changes the entry, its window's charge and the done order, and no port (R90 to R93). -/
@[simp] theorem deliver_port (e : Fin 64) (x : Entry) (s : State) (p : Port) : (deliver e x s).port p = s.port p := by
  cases p <;> cases hx : x.dir <;> simp [deliver, releaseWindow, State.port, State.setWindow, State.setEntry, hx]

@[simp] theorem deliver_lock (e : Fin 64) (x : Entry) (s : State) (k : Fin 8) : (deliver e x s).lock k = s.lock k := by
  cases hx : x.dir <;> simp [deliver, releaseWindow, State.lock, State.setWindow, State.setEntry, hx]

@[simp] theorem deliver_notices (e : Fin 64) (x : Entry) (s : State) : (deliver e x s).notices = s.notices := by
  cases hx : x.dir <;> simp [deliver, releaseWindow, State.setWindow, State.setEntry, hx]

theorem deliver_entry (e i : Fin 64) (x : Entry) (s : State) :
    (deliver e x s).entry i =
      if i = e then
        if x.timedOut then
          some { x with state := .quarantined, buffer := [], deadline := none, quarantine := x.tQuar }
        else none
      else s.entry i := by
  have h : ∀ (t : State) (l : List (Fin 64)), State.entry { t with doneOrder := l } i = t.entry i := fun _ _ => rfl
  unfold deliver
  rw [h, State.entry_setEntry]
  simp [releaseWindow]

theorem deliver_doneOrder (e : Fin 64) (x : Entry) (s : State) : (deliver e x s).doneOrder = s.doneOrder.erase e := rfl

/-- The release of a charge in the words of the statements. -/
theorem releaseWindow_eq (x : Entry) (s : State) : releaseWindow x s = released x.dir x.window s := rfl

/-! ## Bytes and numbers (R194, R195) -/

@[simp] theorem bytesBE_length (n v : Nat) : (bytesBE n v).length = n := by
  induction n generalizing v with
  | zero => rfl
  | succ n ih => simp [bytesBE, ih]

theorem foldl_numBE (bs : List Byte) (a : Nat) :
    bs.foldl (fun acc b => acc * 256 + b.toNat) a = a * 256 ^ bs.length + numBE bs := by
  induction bs generalizing a with
  | nil => simp [numBE]
  | cons b bs ih =>
    simp only [numBE, List.foldl_cons, List.length_cons]
    rw [ih, ih (0 * 256 + b.toNat)]
    ring

theorem numBE_cons (b : Byte) (bs : List Byte) : numBE (b :: bs) = b.toNat * 256 ^ bs.length + numBE bs := by
  have h := foldl_numBE bs b.toNat
  simp only [numBE, List.foldl_cons] at h ⊢
  simpa using h

/-- The bytes of a number spell it back. -/
theorem numBE_bytesBE (n v : Nat) : numBE (bytesBE n v) = v % 256 ^ n := by
  induction n generalizing v with
  | zero => simp [bytesBE, numBE, Nat.mod_one]
  | succ n ih =>
    have h : v % (256 ^ n * 256) = v % 256 ^ n + 256 ^ n * (v / 256 ^ n % 256) := Nat.mod_mul
    rw [bytesBE, numBE_cons, ih, bytesBE_length, BitVec.toNat_ofNat, pow_succ 256 n, h]
    norm_num
    ring

end Sys2Proof.Machine
end

