-- ==== Sys2Proof/WellFormed.lean ====
section
/-! DEFINITION. When a command's operands are those of its row: the checks that the operand types do not already make. -/

namespace Sys2Proof

/-- Any packet of a defined kind is a well-formed operand, whatever its fields (R2, R194); an UNDEFINED_PACKET_ARRIVAL carries a packet
that R194 reads as one of undefined kind. -/
def Instr.undefinedPacketOk : Instr → Bool
  | .undefinedPacketArrival _ packet => decide (Machine.readPacket packet = .undefinedKind)
  | _ => true

/-- A REGISTER_WRITE is a CW whose payload has its length (R52), so that the management agent is reached. -/
def Instr.registerWriteOk : Instr → Bool
  | .registerWrite _ _ length data => decide (data.length = length.toNat) && decide (1 ≤ data.length)
      && decide (data.length ≤ 256)
  | _ => true

/-- A well-formed command. -/
def Instr.wellFormed (i : Instr) : Bool := i.undefinedPacketOk && i.registerWriteOk

end Sys2Proof
end

