-- ==== Sys2Proof/Tests/Slice0.lean ====
section
/-! SUPPORT. Tests of single commands against the spec's worked examples, and for every obligation with hypotheses a state and operands that meet them. -/

set_option maxRecDepth 20000

namespace Sys2Proof.Tests

open Sys2Proof.Machine Sys2Proof.Safety

/-! ## States to test on -/

/-- The state after a command. -/
def run (c : Instr) (s : State) : State :=
  match exec c s with
  | .next t => t
  | _ => s

/-- A port that is UP, with identity 7. -/
def openPort : PortState := { PortState.reset with link := .up, identity := 7 }

/-- The bridge with both ports UP, nothing owed and nothing waiting. -/
def bridge : State := { State.reset with resetN := true, portU := openPort, portD := openPort }

/-- Node 5 at Port U, tag 3. -/
def five : Requester := { port := .u, node := 5, tag := 3 }

/-- A completion to fill queues with. -/
def filler : Completion := answerOf 1 0 .ok []

/-- Port `p` changed. -/
def onPort (p : Port) (f : PortState → PortState) (s : State) : State := s.setPort p (f (s.port p))

/-- Port `p` with `n` completions queued. -/
def filled (p : Port) (n : Nat) (s : State) : State :=
  onPort p (fun x => { x with completions := List.replicate n filler }) s

/-! ## WellFormed and the table word -/

/-- R6: a CRD with an increment is no packet of undefined kind. -/
theorem test_wellFormed_defined_packet : (Instr.undefinedPacketArrival .u [0x0F, 1, 0, 0]).wellFormed = false := by decide

/-- R194: an RD header cut short is one. -/
theorem test_wellFormed_undefined_packet : (Instr.undefinedPacketArrival .u [0x01, 0]).wellFormed = true := by decide

/-- R52: a CW whose data are not of its length. -/
theorem test_wellFormed_short_data : (Instr.registerWrite five 0 4 [1, 2, 3]).wellFormed = false := by decide

/-- R52: a CW of length 0. -/
theorem test_wellFormed_no_data : (Instr.registerWrite five 0 0 []).wellFormed = false := by decide

/-- R52: a CW of 257 bytes. -/
theorem test_wellFormed_long_data : (Instr.registerWrite five 0 257 (List.replicate 257 0)).wellFormed = false := by decide

/-- No row of the table gives bits. -/
theorem test_decodeTableWord : decodeTableWord 8 0 = none := by decide

/-! ## Bring-up: Table 1-7 -/

/-- T0: RESET_N deasserted with the straps at 7. -/
theorem test_deassertion :
    (run (.resetNDeassertion 7) State.reset).portU.identity = 7 ∧
      (run (.resetNDeassertion 7) State.reset).portD.identity = 7 := by decide

/-- T1: link establishment, 16 credits owed, LINK_UP discarded. -/
theorem test_linkEstablishment :
    (run (.linkEstablishment .u) (run (.resetNDeassertion 7) State.reset)).portU =
      { openPort with creditsOwed := 16 } := by decide

/-- T2: the CRD of 16 leaves (Table 11-4). -/
theorem test_crdDeparture :
    (run (.crdDeparture .u) (onPort .u (fun x => { x with creditsOwed := 16 }) bridge)).portU =
      { openPort with lane := [0x0F, 16, 0, 0] } := by decide

/-- T3: the peer's CRD of 16 arrives. -/
theorem test_creditArrival : (run (.creditArrival .u 16) bridge).portU.credits = 16 := by decide

/-- R6: an increment of 17 is discarded and counted. -/
theorem test_creditArrival_17 : (run (.creditArrival .u 17) bridge).portU = { openPort with discard := 1 } := by decide

/-- The RD of IDENT's first field from node 9 (Table 9-3, T0). -/
def identRead : Request :=
  { kind := .rd, dst := 7, src := 9, tag := 1, space := 2, address := 0x0000010000, length := 4, data := [] }

/-- T4: it arrives. -/
theorem test_requestArrival : (run (.requestArrival .u identRead) bridge).portU.ingress = [identRead] := by decide

/-- The bridge with one request at the head of Port U. -/
def withHead (r : Request) (s : State) : State := onPort .u (fun x => { x with ingress := [r] }) s

/-- T5: admission takes it; Table 9-3, T0: OK with the vendor code. -/
theorem test_admission_hand_off :
    (run (.admissionJudgement .u) (withHead identRead bridge)).portU =
      { openPort with creditsOwed := 1, admitted := 1, completions := [answerOf 9 1 .ok [0, 0, 0x0D, 0x3A]] } := by decide

/-- T7: the completion leaves with source 7 (Table 11-2). -/
theorem test_completionDeparture :
    (run (.completionDeparture .u) (onPort .u (fun x => { x with completions := [answerOf 9 1 .ok [0, 0, 0x0D, 0x3A]] })
      bridge)).portU.lane = [0x08, 0, 0, 9, 0, 7, 1, 0, 0, 0, 0, 0, 0, 0, 0x0D, 0x3A] := by decide

/-! ## Table 9-3: management requests, manager (5, U) -/

/-- The bridge with (5, U) as its only manager. -/
def managed : State := { bridge with managers := bridge.managers.set 0 { valid := true, node := 5, port := .u } }

/-- A management RD of length `n` at `a` from `node`, and its answer at Port U. -/
def readAnswer (node : Node) (a : Addr) (n : BitVec 16) : List Completion :=
  (run (.admissionJudgement .u) (withHead { identRead with src := node, address := a, length := n } managed)).portU.completions

/-- T1: (9, U) is no manager. -/
theorem test_read_denied : readAnswer 9 0x0000020004 4 = [answerOf 9 1 .denied []] := by decide

/-- T2: bit 32 of the address is set. T3: window index 16. -/
theorem test_read_bad_object :
    readAnswer 5 0x0100020000 4 = [answerOf 5 1 .badObject []] ∧
      readAnswer 5 0x0000101000 4 = [answerOf 5 1 .badObject []] := by decide

/-- T4: base is an 8-byte field. -/
theorem test_read_bad_length : readAnswer 5 0x0000100308 4 = [answerOf 5 1 .badLength []] := by decide

/-- T5: the in-flight count is read-only. -/
theorem test_registerWrite_read_only :
    (run (.registerWrite five 0x0000100324 4 [0, 0, 0, 1]) managed).portU.completions = [answerOf 5 3 .readOnly []] := by
  decide

/-- T6: a base write while D3 is ACTIVE. -/
theorem test_windowFieldWrite_active :
    (run (.windowFieldWrite five .down 3 (.base 0x1000))
      (managed.setWindow .down 3 { Window.reset with state := .active })).portU.completions =
        [answerOf 5 3 .wrongState []] := by decide

/-- T7: a reserve of 40 is out of range. -/
theorem test_reserveWrite_40 :
    (run (.reserveWrite five .up 40) managed).portU.completions = [answerOf 5 3 .badValue []] := by decide

/-- T8: MANAGERS entry 0 becomes (6, U). -/
theorem test_managerEntryWrite :
    (run (.managerEntryWrite five 0 0x80000006) managed).managers[0] = { valid := true, node := 6, port := .u } := by decide

/-- T9: then (5, U) is denied. -/
theorem test_manager_replaced : (run (.managerEntryWrite five 0 0x80000006) managed).manager 5 .u = false := by decide

/-! ## Chapter 11: D3's attributes -/

/-- 0x8011_2131 is accepted and reads 0x0011_2131. -/
theorem test_windowFieldWrite_attributes :
    readField (.attributes .down 3) (run (.windowFieldWrite five .down 3 (.attributes 0x80112131)) managed) = 0x00112131 := by
  decide

/-- Granule code 3 is refused BAD_VALUE. -/
theorem test_windowFieldWrite_granule_3 :
    (run (.windowFieldWrite five .down 3 (.attributes 0x00113131)) managed).portU.completions =
      [answerOf 5 3 .badValue []] := by decide

/-- The address of L3's generation field. -/
theorem test_address_lock_3 : selectField 0x000030030C = some (.generation 3, true) := by decide

/-! ## Table 2-7: overlap -/

/-- A window of Table 2-6. -/
def window (st : WindowState) (sp : Space) (base limit : Addr) : Window :=
  { Window.reset with state := st, space := sp, base := base, limit := limit, readAllowed := true, writeAllowed := true }

/-- The DOWN table of Table 2-6, with the window of Table 2-7's row as D4. -/
def table26 (w : Window) : State :=
  (((bridge.setWindow .down 0 (window .active .memory 0x0040000000 0x004FFFFFFF)).setWindow .down 1
    (window .draining .memory 0x0060000000 0x006000FFFF)).setWindow .down 2
      (window .active .io 0x0040000000 0x0040000FFF)).setWindow .down 4 w

/-- The answer to ENABLE D4. -/
def enableAnswer (w : Window) : List Completion := (run (.enable five .down 4) (table26 w)).portU.completions

theorem test_enable_touching :
    enableAnswer (window .disabled .memory 0x0050000000 0x005FFFFFFF) = [answerOf 5 3 .ok []] ∧
      enableAnswer (window .disabled .io 0x0040001000 0x0040001FFF) = [answerOf 5 3 .ok []] := by decide

theorem test_enable_overlap :
    enableAnswer (window .disabled .memory 0x0060008000 0x0060008FFF) = [answerOf 5 3 .overlap []] ∧
      enableAnswer (window .disabled .memory 0x0048000000 0x004800FFFF) = [answerOf 5 3 .overlap []] := by decide

/-- R36: with a charge, DISABLE drains. -/
theorem test_disable_drains :
    ((run (.disable five .down 4) (table26 { window .active .memory 0 0xFFF with inFlight := 1 })).window .down 4).state =
      .draining := by decide

/-- R39: CLEAR_FAULT makes a FAULTED window ACTIVE. -/
theorem test_clearFault :
    ((run (.clearFault five .down 4) (table26 (window .faulted .memory 0 0xFFF))).window .down 4).state = .active := by decide

/-- R44: any write clears the hit count. -/
theorem test_hitCountClear :
    ((run (.hitCountClear five .down 4 77) (table26 { Window.reset with hits := 9 })).window .down 4).hits = 0 := by decide

/-! ## Translation, segments and a forwarded read -/

/-- Window D0 of the translation example, to node 12. -/
def d0 : Window :=
  { window .active .memory 0x0040000000 0x004FFFFFFF with translatedBase := 0x0100000000, target := 12 }

/-- The translation example of 2.3. -/
theorem test_translate : d0.translate 0x0040001F80 = 0x0100001F80 := by decide

/-- Table 3-5. -/
theorem test_segment_counts :
    [0x0100001000, 0x0100001040, 0x0100001080, 0x01000010FF].map
      (fun a => (segmentCount .whole a 256, segmentCount .g128 a 256, segmentCount .g256 a 256)) =
        [(1, 2, 1), (1, 3, 2), (1, 2, 2), (1, 3, 2)] := by decide

/-- Table 4-3. -/
theorem test_segments :
    cutSegments .g256 0x0100001040 256 = [(0, 192), (192, 64)] ∧
      cutSegments .g128 0x0100001040 256 = [(0, 64), (64, 128), (192, 64)] := by decide

/-- The bridge with D0 in force. -/
def routed : State := bridge.setWindow .down 0 d0

/-- An RD of 256 bytes at `a` of MEMORY from node 9. -/
def memoryRead (a : Addr) : Request :=
  { kind := .rd, dst := 7, src := 9, tag := 1, space := 0, address := a, length := 256, data := [] }

/-- The RD of the translation example becomes entry 0 and one packet at Port D. -/
theorem test_admission_forward :
    (run (.admissionJudgement .u) (withHead (memoryRead 0x0040001F80) routed)).portD.egress =
      [.segment 0 0
        { kind := .rd, target := 12, tag := 0, space := .memory, address := 0x0100001F80, length := 256, data := [] }] := by
  decide

/-- An RD whose end passes the limit is refused BOUNDARY (translation example). -/
theorem test_admission_boundary :
    (run (.admissionJudgement .u) (withHead (memoryRead 0x004FFFFFC0) routed)).portU.completions =
      [answerOf 9 1 .boundary []] := by decide

/-! ## A segment's way (R79, R83, R90) -/

/-- An entry for a READ of 4 bytes at D0 from (9, U), its one segment in state `g`. -/
def readEntry (st : EntryState) (g : SegState) : Entry :=
  { state := st, dir := .down, kind := .read, node := 9, tag := 1, orphaned := false, window := 0, target := 12,
    address := 0x0100000000, length := 4, segments := [{ offset := 0, length := 4, state := g }], buffer := [0, 0, 0, 0],
    deadline := none, result := none, tQuar := none, quarantine := none }

/-- The packet of its segment, as entry 0. -/
def readPacketOut : EgressPacket :=
  .segment 0 0 { kind := .rd, target := 12, tag := 0, space := .memory, address := 0x0100000000, length := 4, data := [] }

/-- D0 with entry 0 in flight. -/
def waiting (x : Entry) : State := (bridge.setWindow .down 0 { d0 with inFlight := 1 }).setEntry 0 (some x)

/-- Entry 0 PENDING, its packet at the head of Port D with a credit. -/
def sending : State :=
  onPort .d (fun x => { x with egress := [readPacketOut], credits := 1 }) (waiting (readEntry .pending .notSent))

/-- R79: the departure makes the segment SENT, the entry ISSUED, and sets the deadline to tCTO (64 ms). -/
theorem test_egressDeparture :
    (run (.egressDeparture .d) sending).entry 0 =
      some { readEntry .issued .sent with deadline := some { remaining := 64000, setting := .ms64 } } := by decide

/-- Table 11-1: the RD that leaves. -/
theorem test_egressDeparture_bytes :
    (run (.egressDeparture .d) sending).portD.lane = [0x01, 0, 0, 12, 0, 7, 0, 0, 0x01, 0, 0, 0, 0, 0, 0, 4] := by decide

/-- The far answer with four bytes. -/
def farAnswer : CplPacket := { status := 0, dst := 7, src := 12, tag := 0, detail := none, data := [1, 2, 3, 4] }

/-- R83, R90: it answers the requester, and the entry is FREE. -/
theorem test_completionArrival :
    (run (.completionArrival .d farAnswer) (waiting (readEntry .issued .sent))).portU.completions =
      [answerOf 9 1 .ok [1, 2, 3, 4]] := by decide

/-- R82: without an entry it is stray. -/
theorem test_completionArrival_stray : (run (.completionArrival .d farAnswer) bridge).portD.stray = 1 := by decide

/-- R5: a notice is discarded and counted. -/
theorem test_noticeArrival : (run (.noticeArrival .d 7) bridge).portD = { openPort with discard := 1 } := by decide

/-- R6: so is a packet of undefined kind. -/
theorem test_undefinedPacketArrival :
    (run (.undefinedPacketArrival .d [0x55]) bridge).portD = { openPort with discard := 1 } := by decide

/-- Entry 0 ISSUED with a running deadline. -/
def timing : State :=
  waiting { readEntry .issued .sent with deadline := some { remaining := 1, setting := .ms64 } }

/-- R86, R90: the deadline answers TIMEOUT. R87: the entry is QUARANTINED for tCTO. -/
theorem test_completionDeadlineExpiry :
    (run (.completionDeadlineExpiry 0) timing).portU.completions = [answerOf 9 1 .timeout []] ∧
      ((run (.completionDeadlineExpiry 0) timing).entry 0).map (fun x => (x.state, x.quarantine)) =
        some (.quarantined, some 64000) := by decide

/-- Entry 0 QUARANTINED. -/
def quarantined : State :=
  waiting { readEntry .quarantined (.failed .timeout) with result := some (.failed .timeout), quarantine := some 1 }

/-- R87: the quarantine's end frees it. -/
theorem test_quarantineExpiry : (run (.quarantineExpiry 0) quarantined).entry 0 = none := by decide

/-- Entry 0 DONE. -/
def doneState : State :=
  { waiting { readEntry .done .ok with result := some .ok } with doneOrder := [0] }

/-- R90: its delivery. -/
theorem test_doneEntryDelivery :
    (run (.doneEntryDelivery 0) doneState).portU.completions = [answerOf 9 1 .ok [0, 0, 0, 0]] := by decide

/-- R95: a link loss of the forward port answers LINK_DOWN. -/
theorem test_linkLoss :
    (run (.linkLoss .d) (waiting (readEntry .issued .sent))).portU.completions = [answerOf 9 1 .linkDown []] := by decide

/-! ## Stall and notices -/

/-- A record of kind `k` and class `c`. -/
def record (k : NoticeKind) (c : NoticeClass) : NoticeRecord := { kind := k, cls := c, timestamp := 0, details := {} }

/-- Port D the target, node 3, sequence 40, with 2 losses since the last notice (Table 8-3, T4). -/
def backlog : State :=
  { bridge with
    notices := { NoticeUnit.reset with
      targetPort := some .d, targetNode := 3, nextSequence := 40, droppedSince := 2
      queue := [record .linkUp .routine, record .linkDown .urgent] } }

/-- T5: the URGENT record is stamped 40 with 2 losses; the stall timer starts (1 ms). -/
theorem test_noticePlacement :
    (run .noticePlacement backlog).portD =
      { openPort with
        egress := [.notice { destination := 3, sequence := 40, dropped := 2, record := record .linkDown .urgent }]
        stallTimer := some 1000 } := by decide

/-- A port with a notice queued, no credit and its stall timer running. -/
def stalling : State := run .noticePlacement backlog

/-- R127: the expiry flushes the queue; Table 8-3's note: the next notice carries 3 losses. -/
theorem test_stallTimerExpiry :
    ((run (.stallTimerExpiry .d) stalling).portD.link, (run (.stallTimerExpiry .d) stalling).notices.droppedSince) =
      (.stalled, 3) := by decide

/-- R162: class OFF. -/
theorem test_classWrite : (run (.classWrite five .linkUp 0) bridge).noticeClass .linkUp = .off := by decide

/-- R163: target port NONE drains the queue into the count. -/
theorem test_targetPortWrite : (run (.targetPortWrite five 0) backlog).notices.droppedSince = 4 := by decide

theorem test_targetNodeWrite : (run (.targetNodeWrite five 1023) bridge).notices.targetNode = 1023 := by decide

/-! ## Table 7-3: lock 2 -/

/-- L2 held by (21, U) under generation 7, (30, D) and (44, U) waiting, tLEASE 20 ms, tWAIT 50 ms. -/
def l2 : Lock :=
  { Lock.reset with
    holder := some (21, .u), generation := 7, tLease := 20, tWait := 50, lease := some 1
    waiters := [{ node := 30, port := .d, tag := 5, deadline := some 3 }, { node := 44, port := .u, tag := 9, deadline := some 1 }] }

/-- The bridge with lock 2 as given. -/
def locked (x : Lock) : State := bridge.setLock 2 x

/-- T1, T2: an ACQUIRE is appended without an answer, its deadline 50 ms. -/
theorem test_acquire_appended :
    ((run (.acquire { port := .u, node := 60, tag := 1 } 2) (locked l2)).lock 2).waiters.getLast?.map Waiter.deadline =
      some (some 50000) := by decide

/-- T3: a second ACQUIRE of a waiter is DUPLICATE. -/
theorem test_acquire_duplicate :
    (run (.acquire { port := .d, node := 30, tag := 6 } 2) (locked l2)).portD.completions = [answerOf 30 6 .duplicate []] := by
  decide

/-- T4: the lease expires while Port D's queue is full: the grant of generation 8 waits in the outbox. -/
theorem test_leaseExpiry :
    ((run (.leaseExpiry 2) (filled .d 16 (locked l2))).lock 2).outbox =
      some { port := .d, answer := answerOf 30 5 .ok [0, 0, 0, 8] } := by decide

/-- T5: the old holder's RELEASE is NOT_HOLDER. -/
theorem test_release_late :
    (run (.release { port := .u, node := 21, tag := 2 } 2 7) (run (.leaseExpiry 2) (filled .d 16 (locked l2)))).portU.completions =
      [answerOf 21 2 .notHolder []] := by decide

/-- T7: a slot of Port D frees, the grant is placed and the lease runs 20 ms. -/
theorem test_outboxGrantPlacing :
    ((run (.outboxGrantPlacing 2) (filled .d 15 (run (.leaseExpiry 2) (filled .d 16 (locked l2))))).lock 2).lease =
      some 20000 := by decide

/-- T8: BREAK of a placed holder hands the lock to the next waiter under the next generation. -/
theorem test_breakLock :
    ((run (.breakLock five 2) (locked l2)).lock 2).holder = some (30, .d) ∧
      ((run (.breakLock five 2) (locked l2)).lock 2).generation = 8 := by decide

/-- R150: a wait's expiry answers TIMEOUT. -/
theorem test_waitExpiry :
    (run (.waitExpiry 2 44 .u) (locked l2)).portU.completions = [answerOf 44 9 .timeout []] := by decide

/-- R151: an expiry answer that waited takes a free slot. -/
theorem test_expiryAnswerPlacing :
    (run (.expiryAnswerPlacing 2 .u) (locked { l2 with expired := [{ port := .u, answer := answerOf 44 9 .timeout [] }] })).portU.completions =
      [answerOf 44 9 .timeout []] := by decide

theorem test_tleaseWrite : ((run (.tleaseWrite five 2 65535) (locked l2)).lock 2).tLease = 65535 := by decide

theorem test_twaitWrite : ((run (.twaitWrite five 2 65536) (locked l2)).lock 2).tWait = 50 := by decide

/-! ## Settings, the timebase and the resets -/

/-- R8: an entry that uses the port refuses the write. -/
theorem test_nodeIdentityWrite :
    (run (.nodeIdentityWrite five .d 8) bridge).portD.identity = 8 ∧
      (run (.nodeIdentityWrite five .d 8) timing).portU.completions = [answerOf 5 3 .wrongState []] := by decide

/-- R125: tSTALL is stored and a running stall timer starts afresh. -/
theorem test_tstallWrite : (run (.tstallWrite five .d 3) stalling).portD.stallTimer = some 10000 := by decide

theorem test_tctoWrite : (run (.tctoWrite five .up 4) bridge).tctoUp = .ms512 := by decide

theorem test_dividerWrite : (run (.dividerWrite five 25) bridge).timebase.divider = 25 := by decide

/-- R189: the count wraps. -/
theorem test_millisecondCountIncrement :
    (run .millisecondCountIncrement { bridge with timebase := { Timebase.reset with msCount := 0xFFFFFFFF } }).timebase.msCount
      = 0 := by decide

/-- Port D's stall timer with `n` whole ticks to begin, and one REFCLK period to the tick. -/
def atLastPeriod (n : Nat) : State :=
  { onPort .d (fun x => { x with stallTimer := some n }) stalling with timebase := { Timebase.reset with refclk := 99 } }

/-- R187, R188: 100 REFCLK periods give a tick. -/
theorem test_idle_tick :
    (refclkPeriod { stalling with timebase := { Timebase.reset with refclk := 99 } }).portD.stallTimer = some 999 := by decide

/-- R89, R126, R188: a timer of `n` ticks that starts between two ticks runs on at the `n`-th one, less than its length after the start, and
expires at the next. Here the last two of them. -/
theorem test_expiry_not_before_nominal :
    ((refclkPeriod (atLastPeriod 1)).portD.link, (refclkPeriod (atLastPeriod 1)).portD.stallTimer,
      (refclkPeriod (atLastPeriod 0)).portD.link) = (.up, some 0, .stalled) := by decide

/-- Table 9-7, T1: the soft reset frees the entry and owes Port D the credits of its two requests. -/
theorem test_softReset :
    ((run (.softReset five) (onPort .d (fun x => { x with ingress := [identRead, identRead] }) timing)).portD.creditsOwed,
      (run (.softReset five) timing).entry 0) = (2, none) := by decide

/-- R20: power-up reset. -/
theorem test_powerUpReset : run .powerUpReset bridge = State.reset := by decide

/-! ## Witnesses: the hypotheses of each obligation can be met together, each clause at the ends of its range -/

/-- Port U can take a request of `five` with its last slot. -/
def ready : State := filled .u 15 bridge

theorem ready_manager : ManagerCanPresent five ready := managerCanPresent_of_check (by decide) (by decide)

theorem bridge_quiet : Quiet bridge := quiet_of_calm (by decide)

theorem bridge_atRest : AtRest bridge := quiet_atRest _ bridge_quiet

/-- A port that is DOWN, and one that is STALLED. -/
def downPort : PortState := { PortState.reset with identity := 7 }

def stalledPort : PortState := { openPort with link := .stalled }

theorem witness_StepRunsFrontCommand :
    ({ bridge with pending := [.noticePlacement] } : State).pending = .noticePlacement :: [] := rfl

theorem witness_IdleStep_in_reset : State.reset.pending = [] ∧ State.reset.resetN = false := ⟨rfl, rfl⟩

/-- The bridge with `n` REFCLK periods and `m` ticks counted. -/
def counted (n m : Nat) (s : State) : State := { s with timebase := { Timebase.reset with refclk := n, msProgress := m } }

theorem witness_IdleStep_counts :
    (counted 98 0 bridge).pending = [] ∧ (counted 98 0 bridge).resetN = true ∧
      (counted 98 0 bridge).timebase.refclk + 1 < (counted 98 0 bridge).timebase.divider := by decide

theorem timerRuns_of_check {o : Option Nat} (h : o.all (fun n => decide (0 < n)) = true) : timerRuns o := by
  intro n hn
  subst hn
  simpa using h

/-- A stall timer, a deadline, a lease and a wait that all have 1 whole tick to begin. -/
def lastTicks : State :=
  counted 99 999 (onPort .d (fun x => { x with stallTimer := some 1 })
    ((waiting { readEntry .issued .sent with deadline := some { remaining := 1, setting := .ms64 } }).setLock 2
      { l2 with
        lease := some 1
        waiters := [{ node := 30, port := .d, tag := 5, deadline := some 1 }, { node := 44, port := .u, tag := 9, deadline := none }] }))

theorem witness_IdleStep_tick :
    lastTicks.pending = [] ∧ lastTicks.resetN = true ∧ lastTicks.timebase.divider ≤ lastTicks.timebase.refclk + 1 ∧
      (∀ p, timerRuns (lastTicks.port p).stallTimer) ∧
      (∀ e x, lastTicks.entry e = some x → timerRuns (x.deadline.map Deadline.remaining) ∧ timerRuns x.quarantine) ∧
      (∀ k, timerRuns (lastTicks.lock k).lease ∧ ∀ w ∈ (lastTicks.lock k).waiters, timerRuns w.deadline) := by
  refine ⟨rfl, rfl, by decide, fun p => ?_, fun e x hx => ?_, fun k => ?_⟩
  · cases p <;> exact timerRuns_of_check (by decide)
  · have h := forall_entry (s := lastTicks) (P := fun _ x => (x.deadline.map Deadline.remaining).all (fun n => decide (0 < n)) = true ∧
      x.quarantine.all (fun n => decide (0 < n)) = true) (by decide) e x hx
    exact ⟨timerRuns_of_check h.1, timerRuns_of_check h.2⟩
  · have h : ∀ k, (lastTicks.lock k).lease.all (fun n => decide (0 < n)) = true ∧
        ∀ w ∈ (lastTicks.lock k).waiters, w.deadline.all (fun n => decide (0 < n)) = true := by decide
    exact ⟨timerRuns_of_check (h k).1, fun w hw => timerRuns_of_check ((h k).2 w hw)⟩

/-- One stall timer whose ticks are over. -/
def tickDue : State := counted 99 998 (onPort .d (fun x => { x with stallTimer := some 0 }) bridge)

theorem witness_IdleStep_expiry :
    tickDue.pending = [] ∧ tickDue.resetN = true ∧ tickDue.timebase.divider ≤ tickDue.timebase.refclk + 1 ∧
      tickDue.timebase.msProgress < 999 ∧ tickDue.timers.filter tickDue.isDue = [.stall .d] := by decide

theorem witness_PowerUpClearsBlocks : State.reset.notices.targetPort = none := rfl

theorem witness_DeassertionLoadsStraps : State.reset.resetN = false ∧ bridge.resetN = true := ⟨rfl, rfl⟩

theorem witness_HeldResetIgnoresCommands :
    HeldInReset State.reset ∧ ∀ straps, Instr.noticePlacement ≠ .resetNDeassertion straps := ⟨rfl, nofun⟩

/-- Port U not established yet. -/
def halfUp : State := { bridge with portU := downPort }

theorem witness_LinkEstablishment :
    (halfUp.resetN = true ∧ (halfUp.port .u).link = .down ∧ Quiet halfUp ∧ topClaim .u halfUp = none) ∧
      State.reset.resetN = false ∧ (bridge.port .u).link ≠ .down :=
  ⟨⟨rfl, rfl, quiet_of_calm (by decide), by decide⟩, rfl, by decide⟩

/-- Port U STALLED. -/
def halfStalled : State := { bridge with portU := stalledPort }

theorem witness_LinkLossClosesPort :
    ((bridge.port .u).link ≠ .down ∧ (bridge.port .d).headWaits = false) ∧
      (halfStalled.port .u).link ≠ .down ∧ (halfStalled.port .d).headWaits = false := by decide

theorem chargeLaw_of_check {s : State} (h : ∀ t w, (s.window t w).inFlight = s.entries.toList.countP (chargedTo t w) ∧
    ((s.window t w).state = .disabled → (s.window t w).inFlight = 0)) : ChargeLaw s := h

/-- An entry of every kind that a link loss of Port D meets: 0 to 4 forwarded there, 5 to 8 arrived there. -/
def crowd : State :=
  let up := fun (x : Entry) => { x with dir := .up }
  let q := { readEntry .quarantined (.failed .timeout) with result := some (.failed .timeout), quarantine := some 9 }
  let d := { readEntry .done (.failed .timeout) with result := some (.failed .timeout), tQuar := some 9 }
  let es : List Entry :=
    [{ readEntry .issued .sent with kind := .absorbed, buffer := [] }, { readEntry .pending .notSent with orphaned := true },
      readEntry .issued .sent, d, q, up (readEntry .issued .sent), up d,
      up { readEntry .done .ok with result := some .ok }, up q]
  { (bridge.setWindow .down 0 { d0 with inFlight := 4 }).setWindow .up 0 { d0 with inFlight := 3 } with
    entries := Vector.ofFn (fun e => es[e.val]?)
    doneOrder := [3, 6, 7] }

/-- The same with a PASS segment and a notice in Port D's queue, a holder there, a target port, and one record short of a full queue. -/
def wreck : State :=
  let k : SegmentPacket :=
    { kind := .pw, target := 12, tag := 0, space := .memory, address := 0x0100000000, length := 1, data := [1] }
  { (onPort .d (fun x => { x with egress := [.pass 5 .down 3 k,
        .notice { destination := 3, sequence := 40, dropped := 65535, record := record .linkDown .urgent }] }) crowd).setLock 7
      { Lock.reset with holder := some (30, .d) } with
    notices := { NoticeUnit.reset with targetPort := some .u, queue := List.replicate 15 (record .linkUp .routine) } }

theorem witness_LinkLoss_raises :
    (wreck.port .d).link ≠ .down ∧ (wreck.port .u).headWaits = false ∧ NoticeLaw wreck ∧ ChargeLaw wreck ∧
      lockLosses .d wreck ≠ [] ∧ cutOffWrites .d wreck ≠ [] ∧ passLosses .linkDown (wreck.port .d).egress ≠ [] := by
  refine ⟨by decide, by decide, by unfold NoticeLaw; decide, chargeLaw_of_check (fun t => ?_), by decide, by decide, by decide⟩
  cases t <;> decide

theorem witness_LinkLossResolvesEntries :
    EntryLaw crowd ∧ (crowd.port .d).link ≠ .down ∧ (crowd.port .u).headWaits = false ∧
      (List.range 9).map (fun n => (crowd.entry (Fin.ofNat 64 n)).map
        (fun x => (decide (forwardPort x.dir = .d), x.state, decide (x.kind = .absorbed), x.orphaned))) =
        [some (true, .issued, true, false), some (true, .pending, false, true), some (true, .issued, false, false),
          some (true, .done, false, false), some (true, .quarantined, false, false), some (false, .issued, false, false),
          some (false, .done, false, false), some (false, .done, false, false), some (false, .quarantined, false, false)] ∧
      (crowd.window .down 0).state = .active :=
  ⟨entryLaw_of_check (by decide), by decide, by decide, by decide, by decide⟩

/-- Port U with `n` requests stored. -/
def stored (n : Nat) : State := onPort .u (fun x => { x with ingress := List.replicate n identRead }) bridge

theorem witness_RequestArrival :
    (((stored 15).port .u).link ≠ .down ∧ ((stored 15).port .u).ingress.length < 16) ∧
      (((stored 16).port .u).link ≠ .down ∧ 16 ≤ ((stored 16).port .u).ingress.length) ∧ (halfUp.port .u).link = .down := by
  decide

theorem witness_DiscardedArrivals :
    (∃ n, Instr.noticeArrival .u 1023 = .noticeArrival .u n) ∧
      (∃ i : Byte, Instr.creditArrival .u 0 = .creditArrival .u i ∧ (i.toNat = 0 ∨ 16 < i.toNat)) ∧
      (∃ i : Byte, Instr.creditArrival .u 17 = .creditArrival .u i ∧ (i.toNat = 0 ∨ 16 < i.toNat)) ∧
      (∃ b, Instr.undefinedPacketArrival .u [] = .undefinedPacketArrival .u b ∧ readPacket b = .undefinedKind) ∧
      (bridge.port .u).link ≠ .down ∧ (halfStalled.port .u).link ≠ .down ∧ (halfUp.port .u).link = .down :=
  ⟨⟨1023, rfl⟩, ⟨0, rfl, by decide⟩, ⟨17, rfl, by decide⟩, ⟨[], rfl, by decide⟩, by decide, by decide, by decide⟩

theorem witness_CreditArrival :
    (1 ≤ (1 : Byte).toNat ∧ (1 : Byte).toNat ≤ 16 ∧ (bridge.port .u).link ≠ .down ∧ Quiet bridge) ∧
      (1 ≤ (16 : Byte).toNat ∧ (16 : Byte).toNat ≤ 16 ∧ (halfStalled.port .u).link ≠ .down ∧ Quiet halfStalled) ∧
      (halfUp.port .u).link = .down :=
  ⟨⟨by decide, by decide, by decide, bridge_quiet⟩, ⟨by decide, by decide, by decide, quiet_of_calm (by decide)⟩, by decide⟩

/-- Port D with `n` credits and one notice queued. -/
def sendable (n : Nat) : State :=
  onPort .d (fun x => { x with
    credits := n
    egress := [.notice { destination := 3, sequence := 0, dropped := 0, record := record .linkUp .routine }] }) bridge

theorem witness_CreditAndDeparture :
    (Quiet (sendable 1) ∧ ((sendable 1).port .d).choice = .egress ∧ ((sendable 1).port .d).credits + (16 : Byte).toNat ≤ 32) ∧
      (Quiet (sendable 31) ∧ ((sendable 31).port .d).choice = .egress ∧ ((sendable 31).port .d).credits + (1 : Byte).toNat = 32) ∧
      (Quiet (sendable 32) ∧ ((sendable 32).port .d).choice = .egress ∧ ((sendable 32).port .d).credits + (1 : Byte).toNat = 33) ∧
      ((sendable 32).port .d).link ≠ .down :=
  ⟨⟨quiet_of_calm (by decide), by decide, by decide⟩, ⟨quiet_of_calm (by decide), by decide, by decide⟩,
    ⟨quiet_of_calm (by decide), by decide, by decide⟩, by decide⟩

theorem witness_Unmatched_elsewhere :
    AtRest bridge ∧ (bridge.port .d).link ≠ .down ∧ ({ farAnswer with dst := 8 } : CplPacket).dst ≠ (bridge.port .d).identity ∧
      (({ bridge with portD := downPort } : State).port .d).link = .down :=
  ⟨bridge_atRest, by decide, by decide, by decide⟩

/-- A completion from a node that is not the target of the entry its tag names. -/
def wrongSource : CplPacket := { farAnswer with src := 13 }

theorem witness_Unmatched_stray :
    AtRest (waiting (readEntry .issued .sent)) ∧ ((waiting (readEntry .issued .sent)).port .d).link ≠ .down ∧
      wrongSource.dst = ((waiting (readEntry .issued .sent)).port .d).identity ∧
      (∀ x g, ¬ Answers .d wrongSource (waiting (readEntry .issued .sent)) x g) ∧
      (∀ x g, ¬ Late .d wrongSource (waiting (readEntry .issued .sent)) x g) := by
  have h : (waiting (readEntry .issued .sent)).entry (tagEntry wrongSource.tag) = some (readEntry .issued .sent) := by decide
  refine ⟨quiet_atRest _ (quiet_of_calm (by decide)), by decide, by decide, ?_, ?_⟩
  · rintro x g ⟨hx, -, -, -, -, ht⟩
    rw [h] at hx
    cases hx
    exact absurd ht (by decide)
  · rintro x g ⟨hx, -, hs, -, -⟩
    rw [h] at hx
    cases hx
    exact absurd hs (by decide)

theorem witness_Unmatched_late :
    AtRest quarantined ∧ (quarantined.port .d).link ≠ .down ∧ farAnswer.dst = (quarantined.port .d).identity ∧
      Late .d farAnswer quarantined
        { readEntry .quarantined (.failed .timeout) with result := some (.failed .timeout), quarantine := some 1 }
        { offset := 0, length := 4, state := .failed .timeout } :=
  ⟨quiet_atRest _ (quiet_of_calm (by decide)), by decide, by decide, by decide, by decide, by decide, by decide, by decide⟩

/-- A READ of 8 bytes in two SENT segments. -/
def twoSent : Entry :=
  { readEntry .issued .sent with
    length := 8, buffer := List.replicate 8 0
    segments := [{ offset := 0, length := 4, state := .sent }, { offset := 4, length := 4, state := .sent }] }

theorem witness_MatchedAnswer :
    AtRest (waiting twoSent) ∧ ((waiting twoSent).port .d).link ≠ .down ∧
      farAnswer.dst = ((waiting twoSent).port .d).identity ∧
      Answers .d farAnswer (waiting twoSent) twoSent { offset := 0, length := 4, state := .sent } ∧
      ¬ Resolved (resolvedBy twoSent { offset := 0, length := 4, state := .sent } farAnswer).segments :=
  ⟨quiet_atRest _ (quiet_of_calm (by decide)), by decide, by decide,
    ⟨by decide, by decide, by decide, by decide, by decide, by decide⟩, by unfold Resolved; decide⟩

/-- The segment of `readEntry` when it is SENT. -/
def sentSegment : Segment := { offset := 0, length := 4, state := .sent }

/-- The hypotheses that the statements about a last answer share, at a state with one entry in flight. -/
def LastAnswer (c : CplPacket) (s : State) (x : Entry) : Prop :=
  Quiet s ∧ EntryLaw s ∧ DoneLaw s ∧ (s.port .d).link ≠ .down ∧ c.dst = (s.port .d).identity ∧
    Answers .d c s x sentSegment ∧ Resolved (resolvedBy x sentSegment c).segments

theorem lastAnswer_of_check {s : State} {x : Entry} {c : CplPacket} (h1 : calm s = true)
    (h2 : allEntries.all (fun e => match s.entry e with
      | some x => entryOk x
      | none => true) = true) (h3 : doneOk s = true) (h4 : (s.port .d).link ≠ .down ∧ c.dst = (s.port .d).identity)
    (h5 : s.entry (tagEntry c.tag) = some x ∧ x.segments[c.tag.toNat % 4]? = some sentSegment ∧
      (x.state = .pending ∨ x.state = .issued) ∧ forwardPort x.dir = .d ∧ sentSegment.state = .sent ∧ c.src = x.target)
    (h6 : ∀ g ∈ (resolvedBy x sentSegment c).segments, g.state ≠ .notSent ∧ g.state ≠ .sent) : LastAnswer c s x :=
  ⟨quiet_of_calm h1, entryLaw_of_check h2, doneLaw_of_check h3, h4.1, h4.2, h5, h6⟩

/-- The last slot of the origin port is free. -/
theorem witness_LastAnswer_placed :
    LastAnswer farAnswer (filled .u 15 (waiting (readEntry .issued .sent))) (readEntry .issued .sent) ∧
      (readEntry .issued .sent).kind ≠ .absorbed ∧ (readEntry .issued .sent).orphaned = false ∧
      slotFree .u (filled .u 15 (waiting (readEntry .issued .sent))) = true :=
  ⟨lastAnswer_of_check (by decide) (by decide) (by decide) (by decide) (by decide) (by decide), by decide, by decide, by decide⟩

/-- Every slot of the origin port is taken. -/
theorem witness_LastAnswer_done :
    LastAnswer farAnswer (filled .u 16 (waiting (readEntry .issued .sent))) (readEntry .issued .sent) ∧
      (readEntry .issued .sent).kind ≠ .absorbed ∧ (readEntry .issued .sent).orphaned = false ∧
      slotFree .u (filled .u 16 (waiting (readEntry .issued .sent))) = false :=
  ⟨lastAnswer_of_check (by decide) (by decide) (by decide) (by decide) (by decide) (by decide), by decide, by decide, by decide⟩

/-- An orphaned READ. -/
def orphan : Entry := { readEntry .issued .sent with orphaned := true }

theorem witness_LastAnswer_orphaned :
    LastAnswer farAnswer (waiting orphan) orphan ∧ orphan.kind ≠ .absorbed ∧ orphan.orphaned = true :=
  ⟨lastAnswer_of_check (by decide) (by decide) (by decide) (by decide) (by decide) (by decide), by decide, by decide⟩

/-- An ABSORBED write of 4 bytes, and its two answers. -/
def absorbed : Entry := { readEntry .issued .sent with kind := .absorbed, buffer := [] }

/-- An answer to a write, with status `st`. -/
def writeAnswer (st : Byte) : CplPacket := { farAnswer with status := st, data := [] }

theorem witness_LastAnswerAppliesAbsorbedWrite :
    LastAnswer (writeAnswer 0) (waiting absorbed) absorbed ∧ LastAnswer (writeAnswer 0xFF) (waiting absorbed) absorbed :=
  ⟨lastAnswer_of_check (by decide) (by decide) (by decide) (by decide) (by decide) (by decide),
    lastAnswer_of_check (by decide) (by decide) (by decide) (by decide) (by decide) (by decide)⟩

theorem witness_LastAnswerAppliesAbsorbedWrite_results :
    absorbed.kind = .absorbed ∧ ((waiting absorbed).window absorbed.dir absorbed.window).state ≠ .disabled ∧
      ResultOf (resolvedBy absorbed sentSegment (writeAnswer 0)).segments .ok ∧
      ResultOf (resolvedBy absorbed sentSegment (writeAnswer 0xFF)).segments (.failed (.targetError 0xFF)) :=
  ⟨by decide, by decide, .inl ⟨rfl, by decide⟩, .inr ⟨0, _, _, rfl, rfl, by decide, by simp⟩⟩

/-! ### Departures -/

/-- A completion and a ready notice at Port D, the last choice as given. -/
def bothReady (q : TxQueue) : State :=
  onPort .d (fun x => { x with completions := [filler], lastChoice := q }) (sendable 1)

theorem witness_Departures_credit :
    ((onPort .d (fun x => { x with creditsOwed := 1 }) bridge).port .d).link ≠ .down ∧
      0 < ((onPort .d (fun x => { x with creditsOwed := 1 }) bridge).port .d).creditsOwed ∧
      (bridge.port .d).creditsOwed = 0 ∧ (bridge.port .d).completions = [] := by decide

theorem witness_Departures_both_ready (q : TxQueue) :
    Quiet (bothReady q) ∧ topClaim .d (bothReady q) = none ∧ ((bothReady q).port .d).link ≠ .down ∧
      ((bothReady q).port .d).creditsOwed = 0 ∧ ((bothReady q).port .d).completions = filler :: [] ∧
      egressReady ((bothReady q).port .d) ∧ ((bothReady q).port .d).lastChoice = q := by
  cases q <;>
    exact ⟨quiet_of_calm (by decide), by decide, by decide, by decide, by decide, by unfold egressReady; decide, by decide⟩

theorem witness_Departures_completion_alone :
    Quiet (filled .d 1 bridge) ∧ topClaim .d (filled .d 1 bridge) = none ∧ ((filled .d 1 bridge).port .d).link ≠ .down ∧
      ((filled .d 1 bridge).port .d).creditsOwed = 0 ∧ ((filled .d 1 bridge).port .d).completions = filler :: [] ∧
      ¬ egressReady ((filled .d 1 bridge).port .d) :=
  ⟨quiet_of_calm (by decide), by decide, by decide, by decide, by decide, by unfold egressReady; decide⟩

/-- A full completion queue at Port D, with a grant waiting for a slot. -/
def crowded (s : State) : State := filled .d 16 (s.setLock 2 { l2 with outbox := some { port := .d, answer := filler } })

theorem witness_Departures_claim_waits :
    (∀ s ∈ [crowded bridge, crowded (bothReady .egress)], (s.port .d).link ≠ .down ∧ (s.port .d).creditsOwed = 0 ∧
      (s.port .d).completions = filler :: List.replicate 15 filler ∧ (List.replicate 15 filler).length = 15 ∧
      topClaim .d s = some (.outbox 2) ∧ nextClaim (otherPort .d) s = none ∧ s.portU.headWaits = false ∧
      s.portD.headWaits = false) ∧
      EntryLaw (crowded bridge) ∧ EntryLaw (crowded (bothReady .egress)) ∧ ¬ egressReady ((crowded bridge).port .d) ∧
      egressReady ((crowded (bothReady .egress)).port .d) ∧ ((crowded (bothReady .egress)).port .d).lastChoice = .egress :=
  ⟨by decide, entryLaw_of_check (by decide), entryLaw_of_check (by decide), by unfold egressReady; decide,
    by unfold egressReady; decide, by decide⟩

theorem witness_EgressDeparture_not_ready :
    ((sendable 0).port .d).credits = 0 ∧ (({ bridge with portD := stalledPort } : State).port .d).link ≠ .up := by decide

theorem witness_EgressDeparture_notice :
    Quiet (sendable 1) ∧ ((sendable 1).port .d).link = .up ∧ 0 < ((sendable 1).port .d).credits ∧
      ((sendable 1).port .d).creditsOwed = 0 ∧
      (((sendable 1).port .d).completions = [] ∨ ((sendable 1).port .d).lastChoice = .completion) ∧
      ∃ k, ((sendable 1).port .d).egress = k :: [] ∧ ∀ e n q, k ≠ .segment e n q :=
  ⟨quiet_of_calm (by decide), by decide, by decide, by decide, .inl (by decide), _, rfl, nofun⟩

theorem witness_EgressDeparture_segment :
    Quiet sending ∧ (sending.port .d).link = .up ∧ 0 < (sending.port .d).credits ∧ (sending.port .d).creditsOwed = 0 ∧
      (sending.port .d).completions = [] ∧ (sending.port .d).egress = readPacketOut :: [] ∧
      (∃ e n q, readPacketOut = .segment e n q) ∧ sending.entry 0 = some (readEntry .pending .notSent) ∧
      (readEntry .pending .notSent).segments[0]? = some { offset := 0, length := 4, state := .notSent } :=
  ⟨quiet_of_calm (by decide), by decide, by decide, by decide, by decide, by decide, ⟨_, _, _, rfl⟩, by decide, by decide⟩

/-! ### Admission -/

/-- Port U's head is `r`; window `w` is D0. -/
def judged (w : Window) (r : Request) : State := withHead r (bridge.setWindow .down 0 w)

/-- What the statements about admission ask of a state. -/
def HeadOf (r : Request) (s : State) : Prop :=
  Quiet s ∧ OverlapLaw s ∧ (s.port .u).link ≠ .down ∧ (s.port .u).ingress = r :: []

theorem headOf_of_check {r : Request} {s : State} (h1 : calm s = true) (h2 : overlapOk s = true)
    (h3 : (s.port .u).link ≠ .down ∧ (s.port .u).ingress = r :: []) : HeadOf r s :=
  ⟨quiet_of_calm h1, overlapLaw_of_check h2, h3⟩

/-- The same RD, with another length. -/
def longRead (n : BitVec 16) : Request := { memoryRead 0x0040000000 with length := n }

theorem witness_Refusal_malformed :
    HeadOf (longRead 0) (judged d0 (longRead 0)) ∧ ¬ WellFormedRequest 7 (longRead 0) ∧
      HeadOf (longRead 257) (judged d0 (longRead 257)) ∧ ¬ WellFormedRequest 7 (longRead 257) ∧
      WellFormedRequest 7 (longRead 1) ∧ WellFormedRequest 7 (longRead 256) :=
  ⟨headOf_of_check (by decide) (by decide) (by decide), by unfold WellFormedRequest; decide,
    headOf_of_check (by decide) (by decide) (by decide), by unfold WellFormedRequest; decide,
    by unfold WellFormedRequest; decide, by unfold WellFormedRequest; decide⟩

theorem witness_Refusal_misrouted :
    HeadOf { identRead with dst := 8 } (judged d0 { identRead with dst := 8 }) ∧
      WellFormedRequest 7 { identRead with dst := 8 } ∧ ({ identRead with dst := 8 } : Request).dst ≠ 7 :=
  ⟨headOf_of_check (by decide) (by decide) (by decide), by unfold WellFormedRequest; decide, by decide⟩

/-- A PW of one byte at `a`, in the space with code `sp`. -/
def postedWrite (sp : Byte) (a : Addr) : Request :=
  { kind := .pw, dst := 7, src := 9, tag := 1, space := sp, address := a, length := 1, data := [0xAA] }

/-- A PW to CONTROL is well formed only when it is not addressed to the bridge (R52): check 1 or check 2 refuses every one. -/
theorem witness_Refusal_control_pw :
    HeadOf (postedWrite 2 0) (judged d0 (postedWrite 2 0)) ∧ WellFormedRequest 7 (postedWrite 2 0) ∧
      (postedWrite 2 0).dst = 7 ∧ (postedWrite 2 0).space.toNat = 2 ∧ (postedWrite 2 0).kind = .pw :=
  ⟨headOf_of_check (by decide) (by decide) (by decide), by unfold WellFormedRequest; decide, by decide, by decide, by decide⟩

theorem witness_Refusal_unmapped :
    HeadOf (memoryRead 0x003FFFFFFF) (judged d0 (memoryRead 0x003FFFFFFF)) ∧ WellFormedRequest 7 (memoryRead 0x003FFFFFFF) ∧
      (memoryRead 0x003FFFFFFF).dst = 7 ∧ (memoryRead 0x003FFFFFFF).space.toNat ≠ 2 ∧
      ∀ w, ¬ Hits ((judged d0 (memoryRead 0x003FFFFFFF)).window .down w) (memoryRead 0x003FFFFFFF) :=
  ⟨headOf_of_check (by decide) (by decide) (by decide), by unfold WellFormedRequest; decide, by decide, by decide,
    by unfold Hits; decide⟩

/-- A head that passes checks 1 to 4 through D0. -/
def Matched (w : Window) (r : Request) : Prop :=
  HeadOf r (judged w r) ∧ WellFormedRequest 7 r ∧ r.dst = 7 ∧ Hits ((judged w r).window .down 0) r

/-- The end one byte past the limit. -/
theorem witness_Refusal_boundary :
    Matched d0 (memoryRead 0x004FFFFF01) ∧
      ((judged d0 (memoryRead 0x004FFFFF01)).window .down 0).limit.toNat <
        (memoryRead 0x004FFFFF01).address.toNat + (memoryRead 0x004FFFFF01).length.toNat - 1 :=
  ⟨⟨headOf_of_check (by decide) (by decide) (by decide), by unfold WellFormedRequest; decide, by decide,
    by unfold Hits; decide⟩, by decide⟩

/-- The RD whose last byte is D0's last. -/
def lastRead : Request := memoryRead 0x004FFFFF00

/-- A head that passes checks 1 to 5 through D0, its end on the limit. -/
def Within (w : Window) (r : Request) : Prop :=
  Matched w r ∧ r.address.toNat + r.length.toNat - 1 ≤ ((judged w r).window .down 0).limit.toNat

theorem witness_Refusal_closed :
    Within { d0 with state := .draining } lastRead ∧
      ((judged { d0 with state := .draining } lastRead).window .down 0).state = .draining :=
  ⟨⟨⟨headOf_of_check (by decide) (by decide) (by decide), by unfold WellFormedRequest; decide, by decide,
    by unfold Hits; decide⟩, by decide⟩, by decide⟩

theorem witness_Refusal_faulted :
    Within { d0 with state := .faulted } lastRead ∧
      ((judged { d0 with state := .faulted } lastRead).window .down 0).state = .faulted :=
  ⟨⟨⟨headOf_of_check (by decide) (by decide) (by decide), by unfold WellFormedRequest; decide, by decide,
    by unfold Hits; decide⟩, by decide⟩, by decide⟩

/-- D0 closed to reads. -/
def d0NoRead : Window := { d0 with readAllowed := false }

theorem witness_Refusal_access :
    Within d0NoRead lastRead ∧ ((judged d0NoRead lastRead).window .down 0).state = .active ∧
      ¬ Allows ((judged d0NoRead lastRead).window .down 0) lastRead :=
  ⟨⟨⟨headOf_of_check (by decide) (by decide) (by decide), by unfold WellFormedRequest; decide, by decide,
    by unfold Hits; decide⟩, by decide⟩, by decide, by unfold Allows; decide⟩

/-- D0 bound to lock 7, which nobody holds. -/
def d0Bound : Window := { d0 with lockBinding := some 7 }

theorem witness_Refusal_locked :
    Within d0Bound lastRead ∧ ((judged d0Bound lastRead).window .down 0).state = .active ∧
      Allows ((judged d0Bound lastRead).window .down 0) lastRead ∧
      ¬ Binds .u (judged d0Bound lastRead) ((judged d0Bound lastRead).window .down 0) lastRead := by
  refine ⟨⟨⟨headOf_of_check (by decide) (by decide) (by decide), by unfold WellFormedRequest; decide, by decide,
    by unfold Hits; decide⟩, by decide⟩, by decide, by unfold Allows; decide, fun h => ?_⟩
  obtain ⟨h8, hh, -⟩ := h 7 (by decide)
  have hn : ((judged d0Bound lastRead).lock 7).holder ≠ some (lastRead.src, .u) := by decide
  exact hn hh

theorem binds_of_unbound {p : Port} {s : State} {w : Window} {r : Request} (h : w.lockBinding = none) : Binds p s w r := by
  intro k hk
  rw [h] at hk
  cases hk

/-- Port D as given. -/
def withD (x : PortState) (s : State) : State := { s with portD := x }

/-- A head that passes checks 1 to 8 through D0. -/
def Passes8 (r : Request) (s : State) : Prop :=
  HeadOf r s ∧ WellFormedRequest (s.port .u).identity r ∧ r.dst = (s.port .u).identity ∧ Hits (s.window .down 0) r ∧
    r.address.toNat + r.length.toNat - 1 ≤ (s.window .down 0).limit.toNat ∧ (s.window .down 0).state = .active ∧
    Allows (s.window .down 0) r ∧ Binds .u s (s.window .down 0) r

/-- Such a head with Port D DOWN, and with it STALLED. -/
theorem witness_Refusal_port :
    (Passes8 lastRead (withD downPort (judged d0 lastRead)) ∧
      ((withD downPort (judged d0 lastRead)).port (forwardPort (dirOf .u))).link = .down) ∧
      Passes8 lastRead (withD stalledPort (judged d0 lastRead)) ∧
      ((withD stalledPort (judged d0 lastRead)).port (forwardPort (dirOf .u))).link = .stalled :=
  ⟨⟨⟨headOf_of_check (by decide) (by decide) (by decide), by unfold WellFormedRequest; decide, by decide,
      by unfold Hits; decide, by decide, by decide, by unfold Allows; decide, binds_of_unbound (by decide)⟩, by decide⟩,
    ⟨headOf_of_check (by decide) (by decide) (by decide), by unfold WellFormedRequest; decide, by decide,
      by unfold Hits; decide, by decide, by decide, by unfold Allows; decide, binds_of_unbound (by decide)⟩, by decide⟩

/-- The three ways of a refusal: a PW, an RD with one slot left, an RD with none. -/
theorem witness_Refusal_ways :
    (postedWrite 2 0).kind = .pw ∧
      (lastRead.kind ≠ .pw ∧ ((filled .u 15 (judged d0 lastRead)).port .u).completions.length < 16 ∧
        calm (filled .u 15 (judged d0 lastRead)) = true) ∧
      16 ≤ ((filled .u 16 (judged d0 lastRead)).port .u).completions.length ∧
        calm (filled .u 16 (judged d0 lastRead)) = true := by decide

/-- A row that is a request, at a DOWN port; as the head; behind another request with one slot left, and with none. -/
theorem witness_RequestRowsWaitTheirTurn :
    (∀ s, requestOf (.acquire five 0) s = some (.u, requestFor five .rd (LockObject.acquire 0).address 4 [] s)) ∧
      (halfUp.port .u).link = .down ∧ ((bridge.port .u).link ≠ .down ∧ (bridge.port .u).ingress = []) ∧
      ((stored 15).port .u).ingress = identRead :: List.replicate 14 identRead ∧
      identRead ≠ requestFor five .rd (LockObject.acquire 0).address 4 [] (stored 15) ∧
      ((stored 15).port .u).ingress.length < 16 ∧ 16 ≤ ((stored 16).port .u).ingress.length ∧
      (let s := bridge
       let r := requestFor five .rd (LockObject.acquire 0).address 4 [] s
       ((withHead r s).port .u).ingress = r :: [] ∧
         requestOf (.acquire five 0) (withHead r s) = some (.u, r)) :=
  ⟨fun _ => rfl, by decide, by decide, by decide, by decide, by decide, by decide, by decide⟩

/-- Port D's egress queue holds `n` notices; `m` entries of direction DOWN are in use. -/
def loaded (n m : Nat) (s : State) : State :=
  { onPort .d (fun x => { x with
      egress := List.replicate n (.notice { destination := 3, sequence := 0, dropped := 0, record := record .linkUp .routine }) })
      s with
    entries := Vector.ofFn (fun e => if e.val < m then some (readEntry .issued .sent) else none) }

theorem passesChecks_lastRead (n m : Nat) :
    PassesChecks .u lastRead 0 (loaded n m (judged d0 lastRead)) :=
  ⟨(by unfold WellFormedRequest; decide : WellFormedRequest 7 lastRead), rfl,
    (by unfold Hits; decide : Hits ((judged d0 lastRead).window .down 0) lastRead),
    (by decide : lastRead.address.toNat + lastRead.length.toNat - 1 ≤ ((judged d0 lastRead).window .down 0).limit.toNat),
    rfl, (by unfold Allows; decide : Allows ((judged d0 lastRead).window .down 0) lastRead), binds_of_unbound rfl, rfl⟩

/-- The reservation and Port D's queue both at their bounds: 55 + 1 + 8 = 64 and 15 + 1 = 16. -/
theorem witness_Forward_claims :
    HeadOf lastRead (loaded 15 55 (judged d0 lastRead)) ∧
      PassesChecks .u lastRead 0 (loaded 15 55 (judged d0 lastRead)) ∧ lastRead.kind ≠ .pw ∧
      (loaded 15 55 (judged d0 lastRead)).inUse .down + 1 + max ((loaded 15 55 (judged d0 lastRead)).reserve .up)
        ((loaded 15 55 (judged d0 lastRead)).inUse .up) = 64 ∧
      ((loaded 15 55 (judged d0 lastRead)).port .d).egress.length +
        (cutsOf ((loaded 15 55 (judged d0 lastRead)).window .down 0) lastRead).length = 16 ∧
      (loaded 15 55 (judged d0 lastRead)).entry 55 = none ∧
      ∀ i, i < (55 : Fin 64) → (loaded 15 55 (judged d0 lastRead)).entry i ≠ none :=
  ⟨headOf_of_check (by decide) (by decide) (by decide), passesChecks_lastRead 15 55, by decide, by decide, by decide,
    by decide, by decide⟩

/-- One entry more, or one packet more. -/
theorem witness_Forward_waits :
    (HeadOf lastRead (loaded 0 56 (judged d0 lastRead)) ∧
      PassesChecks .u lastRead 0 (loaded 0 56 (judged d0 lastRead)) ∧
      (loaded 0 56 (judged d0 lastRead)).inUse .down + 1 + max ((loaded 0 56 (judged d0 lastRead)).reserve .up)
        ((loaded 0 56 (judged d0 lastRead)).inUse .up) = 65) ∧
      HeadOf lastRead (loaded 16 0 (judged d0 lastRead)) ∧ PassesChecks .u lastRead 0 (loaded 16 0 (judged d0 lastRead)) ∧
      ((loaded 16 0 (judged d0 lastRead)).port .d).egress.length +
        (cutsOf ((loaded 16 0 (judged d0 lastRead)).window .down 0) lastRead).length = 17 :=
  ⟨⟨headOf_of_check (by decide) (by decide) (by decide), passesChecks_lastRead 0 56, by decide⟩,
    headOf_of_check (by decide) (by decide) (by decide), passesChecks_lastRead 16 0, by decide⟩

/-- D0 as a PASS window, and a PW at its last byte. -/
def d0Pass : Window := { d0 with posting := .pass }

def lastWrite : Request := postedWrite 0 0x004FFFFFFF

theorem witness_PassWrite :
    (HeadOf lastWrite (loaded 15 0 (judged d0Pass lastWrite)) ∧
      PassesChecks .u lastWrite 0 (loaded 15 0 (judged d0Pass lastWrite)) ∧ lastWrite.kind = .pw ∧
      ((loaded 15 0 (judged d0Pass lastWrite)).window .down 0).posting = .pass ∧
      ((loaded 15 0 (judged d0Pass lastWrite)).port .d).egress.length +
        (cutsOf ((loaded 15 0 (judged d0Pass lastWrite)).window .down 0) lastWrite).length = 16) ∧
      HeadOf lastWrite (loaded 16 0 (judged d0Pass lastWrite)) ∧
      PassesChecks .u lastWrite 0 (loaded 16 0 (judged d0Pass lastWrite)) ∧
      ((loaded 16 0 (judged d0Pass lastWrite)).port .d).egress.length +
        (cutsOf ((loaded 16 0 (judged d0Pass lastWrite)).window .down 0) lastWrite).length = 17 :=
  ⟨⟨headOf_of_check (by decide) (by decide) (by decide),
    ⟨by unfold WellFormedRequest; decide, rfl, by unfold Hits; decide, by decide, rfl, by unfold Allows; decide,
      binds_of_unbound rfl, rfl⟩, by decide, by decide, by decide⟩,
    headOf_of_check (by decide) (by decide) (by decide),
    ⟨by unfold WellFormedRequest; decide, rfl, by unfold Hits; decide, by decide, rfl, by unfold Allows; decide,
      binds_of_unbound rfl, rfl⟩, by decide⟩

theorem witness_SegmentCut :
    Granule.g128.size = some 128 ∧ Granule.g256.size = some 256 ∧
      (cutSegments .g128 0x40 256)[0]? = some (0, 64) ∧ (cutSegments .g128 0x40 256)[1]? = some (64, 128) ∧
      (cutSegments .g256 0xFF 256)[1]? = some (1, 255) ∧ (cutSegments .g256 0xFF 1)[0]? = some (0, 1) := by decide

/-! ### Reads, addresses and packets -/

/-- An RD of a field from (5, U) at the head, one completion slot left. -/
def reading (f : Field) (s : State) : State :=
  filled .u 15 (withHead (requestFor five .rd f.address (BitVec.ofNat 16 f.width) [] s) s)

/-- Only (6, U) is a manager. -/
def othersOnly : State := { bridge with managers := bridge.managers.set 3 { valid := true, node := 6, port := .u } }

theorem witness_ManagementRead :
    (∀ s ∈ [reading .vendorCode othersOnly, reading .divider bridge, reading .divider othersOnly], calm s = true ∧
      (s.port .u).link ≠ .down ∧ (s.port .u).completions.length = 15) ∧
      ((reading .divider othersOnly).port .u).ingress =
        requestFor five .rd Field.divider.address (BitVec.ofNat 16 Field.divider.width) [] (reading .divider othersOnly) :: [] ∧
      Field.vendorCode.open? = true ∧ (reading .divider bridge).manager 5 .u = true ∧
      Field.divider.open? = false ∧ (reading .divider othersOnly).manager 5 .u = false := by decide

/-- An RD of length `n` at address `a` from (5, U) at the head, one completion slot left. -/
def readingAt (a : Addr) (n : BitVec 16) (s : State) : State := filled .u 15 (withHead (requestFor five .rd a n [] s) s)

theorem witness_ManagementRead_refused :
    (∀ s ∈ [readingAt 0x0001000000 1 bridge, readingAt 0x0000500000 256 othersOnly, readingAt 0x0000500000 5 bridge,
        readingAt 0x000010000C 4 bridge, readingAt 0x0000300700 256 bridge, readingAt 0x0000300704 4 bridge], calm s = true ∧
      (s.port .u).link ≠ .down ∧ (s.port .u).completions.length = 15) ∧
      ((readingAt 0x0001000000 1 bridge).port .u).ingress =
        requestFor five .rd 0x0001000000 1 [] (readingAt 0x0001000000 1 bridge) :: [] ∧
      1 ≤ (1 : BitVec 16).toNat ∧ (256 : BitVec 16).toNat ≤ 256 ∧
      selectLock 0x0001000000 = none ∧ selectField 0x0001000000 = none ∧
      selectField 0x0000500000 = some (.manager 0, true) ∧ (readingAt 0x0000500000 256 othersOnly).manager 5 .u = false ∧
      (readingAt 0x0000500000 5 bridge).manager 5 .u = true ∧ (5 : BitVec 16).toNat ≠ (Field.manager 0).width ∧
      selectField 0x000010000C = some (.base .down 0, false) ∧
      (0x0000300700 : Addr) = (LockObject.acquire 7).address ∧ (0x0000300704 : Addr) = (LockObject.release 7).address := by
  decide

/-- R139: an RD at RELEASE is refused BAD_OBJECT, an ACQUIRE of 8 bytes BAD_LENGTH. -/
theorem test_lock_reads :
    (run (.admissionJudgement .u) (withHead (requestFor five .rd (LockObject.release 2).address 4 [] bridge) bridge)).portU.completions
      ++ (run (.admissionJudgement .u)
        (withHead (requestFor five .rd (LockObject.acquire 2).address 8 [] bridge) bridge)).portU.completions
      = [answerOf 5 3 .badObject [], answerOf 5 3 .badLength []] := by decide

theorem witness_ManagementRead_views :
    (bridge.window .down 0).fault = none ∧
      ((bridge.setWindow .up 15 { Window.reset with fault := some { address := 1, node := 1023, status := .timeout, later := 255 } }).window
        .up 15).fault = some { address := 1, node := 1023, status := .timeout, later := 255 } ∧
      bridge.entry 63 = none ∧ (bridge.lock 7).holder = none ∧ ((locked l2).lock 2).holder = some (21, .u) := by decide

theorem witness_FieldAddresses :
    selectField 0x0000100308 = some (.base .down 3, true) ∧ selectField 0x000010030C = some (.base .down 3, false) ∧
      selectLock 0x0000300704 = some (.release 7) ∧ 2 ^ 24 ≤ (0x0001000000 : Addr).toNat := by decide

/-- A stamped notice with 65535 losses, an address and a node. -/
def fullNotice : StampedNotice :=
  { destination := 1023, sequence := 0xFFFF, dropped := 65535
    record :=
      { kind := .lockExpired, cls := .urgent, timestamp := 0xFFFFFFFF
        details :=
          { port := some .d, window := some (.up, 15), address := some 0xFFFFFFFFFF, node := some 1023, lock := some 7,
            status := some 0xFF, cause := some .link } } }

theorem witness_PacketsReadBack :
    fullNotice.dropped ≤ 65535 ∧ fullNotice.record.details.address = some 0xFFFFFFFFFF ∧
      fullNotice.record.details.node = some 1023 ∧ fullNotice.record.details.port = some .d ∧
      fullNotice.record.details.window = some (.up, 15) ∧ fullNotice.record.details.lock = some 7 ∧
      fullNotice.record.details.status = some 0xFF ∧ fullNotice.record.details.cause = some .link ∧ (List.replicate 2 (0 : Byte)).length < 3 ∧
      ((3 : Byte).toNat ≤ 3 ∧ (List.replicate 14 (0 : Byte)).length < 15) ∧
      ((8 : Byte).toNat = 8 ∧ (List.replicate 10 (0 : Byte)).length < 11) ∧
      ((12 : Byte).toNat = 12 ∧ (List.replicate 30 (0 : Byte)).length < 31) := by decide

/-- Table 11-3: the bytes of a notice with every detail present. -/
theorem test_noticeBytes :
    noticeBytes 7 fullNotice =
      [0x0C, 10, 0x03, 0xFF, 0, 7, 0xFF, 0xFF, 0xFF, 0xFF, 2, 0, 0xFF, 0xFF, 0xFF, 0xFF, 0, 0x7F, 1, 0x1F,
        0xFF, 0xFF, 0xFF, 0xFF, 0xFF, 0, 0x03, 0xFF, 7, 0xFF, 3, 0] := by decide

/-! ### Notices and claims -/

/-- `n` records queued for a target at Port D. -/
def noted (n : Nat) : State :=
  { bridge with
    notices := { NoticeUnit.reset with targetPort := some .d, queue := List.replicate n (record .linkUp .routine) } }

theorem witness_RaiseJudged :
    (run (.classWrite five .linkUp 0) bridge).noticeClass .linkUp = .off ∧
      (bridge.noticeClass .linkUp ≠ .off ∧ bridge.notices.targetPort = none) ∧
      ((noted 16).noticeClass .linkUp ≠ .off ∧ (noted 16).notices.targetPort ≠ none ∧
        16 ≤ (noted 16).notices.queue.length) ∧
      (noted 15).noticeClass .linkUp ≠ .off ∧ (noted 15).notices.targetPort ≠ none ∧
        (noted 15).notices.queue.length < 16 := by decide

/-- The backlog with 15 packets in Port D's queue. -/
def tightBacklog : State := loaded 15 0 backlog

theorem witness_NoticePlacement_urgent :
    Quiet tightBacklog ∧ tightBacklog.notices.targetPort = some .d ∧ (tightBacklog.port .d).link = .up ∧
      (tightBacklog.port .d).egress.length < 16 ∧
      tightBacklog.notices.queue = [record .linkUp .routine] ++ record .linkDown .urgent :: [] ∧
      (record .linkDown .urgent).cls = .urgent ∧ ∀ x ∈ [record .linkUp .routine], x.cls ≠ .urgent :=
  ⟨quiet_of_calm (by decide), by decide, by decide, by decide, by decide, by decide, by decide⟩

theorem witness_NoticePlacement_routine :
    Quiet (noted 1) ∧ (noted 1).notices.targetPort = some .d ∧ ((noted 1).port .d).link = .up ∧
      ((noted 1).port .d).egress.length < 16 ∧ (noted 1).notices.queue = [] ++ record .linkUp .routine :: [] ∧
      ∀ x ∈ record .linkUp .routine :: [], x.cls ≠ .urgent :=
  ⟨quiet_of_calm (by decide), by decide, by decide, by decide, by decide, by decide⟩

theorem witness_NoticePlacement_none :
    bridge.notices.targetPort = none ∧ (noted 0).notices.queue = [] ∧
      ((withD stalledPort (noted 1)).notices.targetPort = some .d ∧ ((withD stalledPort (noted 1)).port .d).link ≠ .up) ∧
      (loaded 16 0 (noted 1)).notices.targetPort = some .d ∧ 16 ≤ ((loaded 16 0 (noted 1)).port .d).egress.length := by
  decide

/-- A lock without an outbox completion or an expiry answer claims nothing (R103). -/
theorem noLockClaim_of_empty {p : Port} {s : State} {k : Fin 8} (h : (s.lock k).outbox = none ∧ (s.lock k).expired = []) :
    NoLockClaim p s k :=
  ⟨fun o ho => absurd (h.1.symm.trans ho) (by simp), fun g hg => absurd (h.2 ▸ hg) (by simp)⟩

/-- A completion held for Port D. -/
def heldAnswer (st : Status) : HeldAnswer := { port := .d, answer := answerOf 30 5 st [] }

/-- Lock 2 held by (30, D), its grant in the outbox; lock 2 broken, its answer there; and two expiry answers. -/
def grantHeld : Lock :=
  { l2 with holder := some (30, .d), lease := none, outbox := some (heldAnswer .ok), waiters := l2.waiters.drop 1 }

def brokenHeld : Lock := { l2 with holder := none, lease := none, outbox := some (heldAnswer .lockBroken) }

def expiredHeld : Lock :=
  { l2 with expired := [{ port := .u, answer := answerOf 44 9 .timeout [] }, heldAnswer .timeout] }

/-- One slot of Port D is free, Port U has none, and a claim waits for Port D. -/
def oneSlot (x : Lock) : State := filled .u 16 (filled .d 15 (locked x))

theorem oneSlot_holds (x : Lock) (h : nextClaim .u (oneSlot x) = none) : OneSlot .d (oneSlot x) :=
  ⟨by simp [oneSlot, filled, onPort, locked, bridge, openPort, State.port, State.setPort, State.setLock],
    by simp [oneSlot, filled, onPort, locked, bridge, openPort, State.port, State.setPort, State.setLock], h, rfl, rfl⟩

theorem witness_Claims_outbox :
    (OneSlot .d (oneSlot grantHeld) ∧ ((oneSlot grantHeld).lock 2).outbox = some (heldAnswer .ok) ∧
      (∀ j, j < (2 : Fin 8) → NoLockClaim .d (oneSlot grantHeld) j)) ∧
      OneSlot .d (oneSlot brokenHeld) ∧ ((oneSlot brokenHeld).lock 2).outbox = some (heldAnswer .lockBroken) ∧
      ((oneSlot brokenHeld).lock 2).holder = none ∧ ∀ j, j < (2 : Fin 8) → NoLockClaim .d (oneSlot brokenHeld) j := by
  have h : ∀ x ∈ [grantHeld, brokenHeld], ∀ j, j < (2 : Fin 8) →
      ((oneSlot x).lock j).outbox = none ∧ ((oneSlot x).lock j).expired = [] := by decide
  exact ⟨⟨oneSlot_holds _ (by decide), by decide, fun j hj => noLockClaim_of_empty (h grantHeld (by decide) j hj)⟩,
    oneSlot_holds _ (by decide), by decide, by decide, fun j hj => noLockClaim_of_empty (h brokenHeld (by decide) j hj)⟩

theorem witness_Claims_expired :
    OneSlot .d (oneSlot expiredHeld) ∧ ((oneSlot expiredHeld).lock 2).outbox = none ∧
      ((oneSlot expiredHeld).lock 2).expired =
        [{ port := .u, answer := answerOf 44 9 .timeout [] }] ++ heldAnswer .timeout :: [] ∧
      (heldAnswer .timeout).port = .d ∧ (∀ j, j < (2 : Fin 8) → NoLockClaim .d (oneSlot expiredHeld) j) := by
  have h : ∀ j, j < (2 : Fin 8) →
      ((oneSlot expiredHeld).lock j).outbox = none ∧ ((oneSlot expiredHeld).lock j).expired = [] := by decide
  exact ⟨oneSlot_holds _ (by decide), by decide, by decide, by decide, fun j hj => noLockClaim_of_empty (h j hj)⟩

/-- One slot of Port U is free, and entry 0 is DONE; its segment OK, or timed out. -/
def oneDone (g : SegState) (r : Result) : State :=
  { filled .u 15 (waiting { readEntry .done g with result := some r, tQuar := some 5 }) with doneOrder := [0] }

theorem witness_Claims_done (g : SegState) (r : Result) :
    OneSlot .u (oneDone g r) ∧ (∀ k, NoLockClaim .u (oneDone g r) k) ∧ (oneDone g r).doneOrder = [] ++ 0 :: [] ∧
      (oneDone g r).entry 0 = some { readEntry .done g with result := some r, tQuar := some 5 } ∧
      originPort (readEntry .done g).dir = .u := by
  have h : ∀ k, ((oneDone g r).lock k).outbox = none ∧ ((oneDone g r).lock k).expired = [] := by
    show ∀ k : Fin 8, (bridge.lock k).outbox = none ∧ (bridge.lock k).expired = []
    decide
  refine ⟨⟨?_, ?_, ?_, rfl, rfl⟩, fun k => noLockClaim_of_empty (h k), rfl, ?_, rfl⟩
  · simp [oneDone, filled, onPort, waiting, bridge, openPort, State.port, State.setPort, State.setWindow, State.setEntry]
  · simp [oneDone, filled, onPort, waiting, bridge, openPort, State.port, State.setPort, State.setWindow, State.setEntry]
  · cases g <;> cases r <;> rfl
  · rfl

theorem witness_Claims_none : SlotLaw bridge := bridge_quiet.1

/-! ### Expiries -/

/-- The hypotheses that the clauses of a deadline's expiry share. -/
def DeadlineRuns (x : Entry) (s : State) : Prop :=
  Quiet s ∧ EntryLaw s ∧ DoneLaw s ∧ s.entry 0 = some x ∧ x.deadline = some { remaining := 1, setting := .ms64 }

theorem deadlineRuns_of_check {x : Entry} {s : State} (h1 : calm s = true)
    (h2 : allEntries.all (fun e => match s.entry e with
      | some x => entryOk x
      | none => true) = true) (h3 : doneOk s = true)
    (h4 : s.entry 0 = some x ∧ x.deadline = some { remaining := 1, setting := .ms64 }) : DeadlineRuns x s :=
  ⟨quiet_of_calm h1, entryLaw_of_check h2, doneLaw_of_check h3, h4⟩

/-- An entry with a deadline that is about to expire. -/
def dueRead : Entry := { readEntry .issued .sent with deadline := some { remaining := 1, setting := .ms64 } }

def dueOrphan : Entry := { dueRead with orphaned := true }

def dueAbsorbed : Entry := { dueRead with kind := .absorbed, buffer := [] }

theorem witness_DeadlineExpiry :
    (DeadlineRuns dueRead (filled .u 15 (waiting dueRead)) ∧ slotFree .u (filled .u 15 (waiting dueRead)) = true) ∧
      (DeadlineRuns dueRead (filled .u 16 (waiting dueRead)) ∧ slotFree .u (filled .u 16 (waiting dueRead)) = false) ∧
      DeadlineRuns dueOrphan (waiting dueOrphan) ∧ DeadlineRuns dueAbsorbed (waiting dueAbsorbed) ∧
      ((waiting dueAbsorbed).window .down 0).state ≠ .disabled :=
  ⟨⟨deadlineRuns_of_check (by decide) (by decide) (by decide) (by decide), by decide⟩,
    ⟨deadlineRuns_of_check (by decide) (by decide) (by decide) (by decide), by decide⟩,
    deadlineRuns_of_check (by decide) (by decide) (by decide) (by decide),
    deadlineRuns_of_check (by decide) (by decide) (by decide) (by decide), by decide⟩

theorem witness_DeadlineExpiry_none :
    AtRest quarantined ∧ (∀ x, quarantined.entry 0 = some x → x.deadline = none) ∧
      (Quiet quarantined ∧ ∃ x, quarantined.entry 0 = some x ∧ x.state = .quarantined ∧ x.quarantine ≠ none) ∧
      AtRest timing ∧ ∀ x, timing.entry 0 = some x → x.state ≠ .quarantined := by
  refine ⟨quiet_atRest _ (quiet_of_calm (by decide)), fun x hx => ?_, ⟨quiet_of_calm (by decide), _, rfl, rfl, by decide⟩,
    quiet_atRest _ (quiet_of_calm (by decide)), fun x hx => ?_⟩
  · exact forall_entry (s := quarantined) (P := fun _ x => x.deadline = none) (by decide) 0 x hx
  · exact forall_entry (s := timing) (P := fun _ x => x.state ≠ .quarantined) (by decide) 0 x hx

theorem portLaw_of_check {s : State} (hu : PortBounds s.portU ∧ PortLinks s.portU ∧ PortTimer s.portU)
    (hd : PortBounds s.portD ∧ PortLinks s.portD ∧ PortTimer s.portD) : PortLaw s := by
  intro p
  cases p
  · exact hu
  · exact hd

/-- A packet of segment `n` of entry `e`. -/
def segmentOf (e : Fin 64) (n : Nat) : EgressPacket :=
  .segment e n
    { kind := .rd, target := 12, tag := bridgeTag e n, space := .memory, address := 0x0100000000, length := 4, data := [] }

/-- Port D without credit, its stall timer running, with packets of entries 0 (partly sent), 1 (ABSORBED), 2 (orphaned) and 3;
entry 4 waits for its answer. -/
def jam : State :=
  let es : List Entry :=
    [{ readEntry .pending .sent with
        length := 8, segments := [{ offset := 0, length := 4, state := .sent }, { offset := 4, length := 4, state := .notSent }] },
      { readEntry .pending .notSent with kind := .absorbed, buffer := [] },
      { readEntry .pending .notSent with orphaned := true }, readEntry .pending .notSent, readEntry .issued .sent]
  { onPort .d (fun x => { x with
      egress := [segmentOf 0 1, segmentOf 1 0, segmentOf 2 0, segmentOf 3 0], stallTimer := some 1 })
      (bridge.setWindow .down 0 { d0 with inFlight := 5 }) with
    entries := Vector.ofFn (fun e => es[e.val]?) }

theorem jam_portLaw : PortLaw jam :=
  portLaw_of_check (by unfold PortBounds PortLinks PortTimer; decide) (by unfold PortBounds PortLinks PortTimer; decide)

theorem witness_StallExpiry_failed_write :
    ((jam.window .down 0).state = .active ∧
      (jam.entry 1).any (fun x => x.segments.all (fun g => decide (g.state = .notSent))) = true ∧
      ∀ i y, i ≠ 1 → jam.entry i = some y → y.kind = .absorbed → False) ∧
      NoticeLaw jam ∧ ChargeLaw jam ∧ stalledWrites .d jam ≠ [] := by
  refine ⟨⟨by decide, by decide, fun i y hi hy hk => ?_⟩, by unfold NoticeLaw; decide, chargeLaw_of_check (fun t => ?_), by decide⟩
  · exact forall_entry (s := jam) (P := fun e x => e ≠ 1 → ¬ x.kind = .absorbed) (by decide) i y hy hi hk
  · cases t <;> decide

theorem witness_StallExpiry :
    Quiet jam ∧ PortLaw jam ∧ EntryLaw jam ∧ EgressLaw jam ∧ (jam.port .d).stallTimer ≠ none ∧
      (List.range 5).map (fun n => (jam.entry (Fin.ofNat 64 n)).map (fun x =>
        (decide (x.state = .pending), x.segments.any (fun g => decide (g.state = .sent)), decide (x.kind = .absorbed),
          x.orphaned))) =
        [some (true, true, false, false), some (true, false, true, false), some (true, false, false, true),
          some (true, false, false, false), some (false, true, false, false)] ∧ jam.entry 5 = none :=
  ⟨quiet_of_calm (by decide), jam_portLaw, entryLaw_of_check (by decide), egressLaw_of_check (by decide), by decide, by decide,
    by decide⟩

/-- A notice alone in Port D's queue, and counts at their ends. -/
def fullCounts : State :=
  { stalling with notices := { stalling.notices with droppedSince := 65535, droppedTotal := 4294967295 } }

theorem witness_StallExpiry_notices :
    Quiet fullCounts ∧ PortLaw fullCounts ∧ NoticeLaw fullCounts ∧ (fullCounts.port .d).stallTimer ≠ none ∧
      (∀ e n q, EgressPacket.segment e n q ∉ (fullCounts.port .d).egress) ∧
      AtRest bridge ∧ (bridge.port .d).stallTimer = none := by
  refine ⟨quiet_of_calm (by decide),
    portLaw_of_check (by unfold PortBounds PortLinks PortTimer; decide) (by unfold PortBounds PortLinks PortTimer; decide),
    by unfold NoticeLaw; decide, by decide, fun e n q h => ?_, bridge_atRest, rfl⟩
  have he : (fullCounts.port .d).egress =
      [.notice { destination := 3, sequence := 40, dropped := 2, record := record .linkDown .urgent }] := by decide
  rw [he] at h
  simp at h

theorem witness_LeaseExpiry :
    (Quiet (locked l2) ∧ ((locked l2).lock 2).lease = some 1 ∧ ((locked l2).lock 2).holder = some (21, .u) ∧
      ((locked l2).lock 2).outbox = none) ∧ AtRest bridge ∧ (bridge.lock 2).lease = none :=
  ⟨⟨quiet_of_calm (by decide), by decide, by decide, by decide⟩, bridge_atRest, by decide⟩

/-- The second waiter of lock 2. -/
def waiter44 : Waiter := { node := 44, port := .u, tag := 9, deadline := some 1 }

theorem witness_WaitExpiry :
    (Quiet (filled .u 15 (locked l2)) ∧ ((filled .u 15 (locked l2)).lock 2).waiters =
        [{ node := 30, port := .d, tag := 5, deadline := some 3 }] ++ waiter44 :: [] ∧ waiter44.deadline ≠ none ∧
      (∀ v ∈ [({ node := 30, port := .d, tag := 5, deadline := some 3 } : Waiter)],
        (v.node, v.port) ≠ (waiter44.node, waiter44.port)) ∧ slotFree .u (filled .u 15 (locked l2)) = true) ∧
      (Quiet (filled .u 16 (locked l2)) ∧ slotFree .u (filled .u 16 (locked l2)) = false) ∧
      AtRest bridge ∧ (bridge.lock 2).waiters = [] :=
  ⟨⟨quiet_of_calm (by decide), by decide, by decide, by decide, by decide⟩, ⟨quiet_of_calm (by decide), by decide⟩,
    bridge_atRest, by decide⟩

/-! ### Locks -/

/-- Lock 2 as given, with Port U's last slot free. -/
def readyLock (x : Lock) : State := filled .u 15 (locked x)

/-- `n` waiters on Port D. -/
def queueOf (n : Nat) : List Waiter :=
  (List.range n).map (fun i => { node := BitVec.ofNat 10 (100 + i), port := .d, tag := 0, deadline := none })

/-- Lock 2 held by (5, U); lock 2 with (5, U) waiting; lock 2 with 3 and with 4 waiters. -/
def mine : Lock := { l2 with holder := some (5, .u) }

def waitingMine : Lock := { l2 with waiters := [{ node := 5, port := .u, tag := 0, deadline := none }] }

theorem witness_Acquire :
    (CanPresent five ready ∧ (ready.lock 2).holder = none ∧ (ready.lock 2).outbox = none ∧ (ready.lock 2).waiters = []) ∧
      (CanPresent five (readyLock mine) ∧ ((readyLock mine).lock 2).holder = some (five.node, five.port)) ∧
      (CanPresent five (readyLock waitingMine) ∧ ((readyLock waitingMine).lock 2).holder ≠ some (five.node, five.port) ∧
        ∃ w ∈ ((readyLock waitingMine).lock 2).waiters, (w.node, w.port) = (five.node, five.port)) ∧
      (∀ n ∈ [3, 4], mayPresent five (readyLock { l2 with waiters := queueOf n }) = true ∧
        ((readyLock { l2 with waiters := queueOf n }).lock 2).holder ≠ some (five.node, five.port) ∧
        (∀ w ∈ ((readyLock { l2 with waiters := queueOf n }).lock 2).waiters, (w.node, w.port) ≠ (five.node, five.port)) ∧
        ((readyLock { l2 with waiters := queueOf n }).lock 2).waiters.length = n ∧
        ((readyLock { l2 with waiters := queueOf n }).lock 2).holder ≠ none) :=
  ⟨⟨canPresent_of_check (by decide), by decide, by decide, by decide⟩, ⟨canPresent_of_check (by decide), by decide⟩,
    ⟨canPresent_of_check (by decide), by decide, by decide⟩, by decide⟩

theorem witness_Release :
    (CanPresent five (readyLock mine) ∧ LockLaw (readyLock mine) ∧
      ((readyLock mine).lock 2).holder = some (five.node, five.port) ∧ (7 : Word32) = ((readyLock mine).lock 2).generation ∧
      (8 : Word32) ≠ ((readyLock mine).lock 2).generation) ∧
      CanPresent five (readyLock l2) ∧ LockLaw (readyLock l2) ∧
      ((readyLock l2).lock 2).holder ≠ some (five.node, five.port) :=
  ⟨⟨canPresent_of_check (by decide), lockLaw_of_check (by decide), by decide, by decide, by decide⟩,
    canPresent_of_check (by decide), lockLaw_of_check (by decide), by decide⟩

/-- Lock 2 with its grant in the outbox, while Port D has no slot. -/
def grantWaits : State := filled .d 16 (readyLock grantHeld)

theorem witness_Break :
    (ManagerCanPresent five (readyLock l2) ∧ ((readyLock l2).lock 2).holder = some (21, .u) ∧
      ((readyLock l2).lock 2).outbox = none) ∧
      (ManagerCanPresent five grantWaits ∧ (grantWaits.lock 2).holder = some (30, .d) ∧
        (grantWaits.lock 2).outbox = some (heldAnswer .ok)) ∧
      ManagerCanPresent five ready ∧ (ready.lock 2).holder = none :=
  ⟨⟨managerCanPresent_of_check (by decide) (by decide), by decide, by decide⟩,
    ⟨managerCanPresent_of_check (by decide) (by decide), by decide, by decide⟩, ready_manager, by decide⟩

/-! ### Windows -/

/-- Window D4 as given, beside the windows of Table 2-6, Port U's last slot free. -/
def readyWindow (w : Window) : State := filled .u 15 (table26 w)

theorem readyWindow_manager (w : Window) : ManagerCanPresent five (readyWindow w) :=
  ⟨⟨⟨fun p => by cases p <;> rfl, rfl, rfl⟩, (nofun : LinkState.up ≠ .down), rfl, (by decide : 15 < 16)⟩, rfl⟩

/-- One page; its translation ends at the last 40-bit address. -/
def lastPage : Window :=
  { window .disabled .memory 0xFFFFFFF000 0xFFFFFFFFFF with translatedBase := 0xFFFFFFF000, target := 12, lockBinding := some 7 }

theorem witness_Enable_refused :
    ((readyWindow (window .active .memory 0 0xFFF)).window .down 4).state ≠ .disabled ∧
      ((readyWindow lastPage).window .down 4).state = .disabled ∧
      ¬ AddressesAligned { lastPage with base := 0xFFFFFFF001 } ∧ ¬ AddressesAligned { lastPage with base := 0 , limit := 0 } ∧
      ¬ TranslationFits { lastPage with base := 0xFFFFFFE000 } ∧
      ({ lastPage with target := 7 } : Window).target = ((readyWindow lastPage).port (forwardPort .down)).identity ∧
      ∃ k, ({ lastPage with lockBinding := some 8 } : Window).lockBinding = some k ∧ 8 ≤ k.toNat :=
  ⟨by decide, by decide, by unfold AddressesAligned; decide, by unfold AddressesAligned; decide,
    by unfold TranslationFits; decide, by decide, 8, rfl, by decide⟩

/-- Table 2-7's D4 and D5: the one touches D0, the other lies in D1. -/
def touching : Window := window .disabled .memory 0x0050000000 0x005FFFFFFF

def overlapping : Window := window .disabled .memory 0x0060008000 0x0060008FFF

/-- The window has passed ENABLE's checks 1 to 4 in its state. -/
def EnableChecked (w : Window) : Prop :=
  ManagerCanPresent five (readyWindow w) ∧ ((readyWindow w).window .down 4).state = .disabled ∧
    AddressesAligned ((readyWindow w).window .down 4) ∧ TranslationFits ((readyWindow w).window .down 4) ∧
    ((readyWindow w).window .down 4).target ≠ ((readyWindow w).port (forwardPort .down)).identity ∧
    ∀ k, ((readyWindow w).window .down 4).lockBinding = some k → k.toNat < 8

theorem enableChecked_of_check {w : Window}
    (h : ((readyWindow w).window .down 4).state = .disabled ∧ ((readyWindow w).window .down 4).target ≠ 7 ∧
      ((readyWindow w).window .down 4).lockBinding = none)
    (h1 : AddressesAligned ((readyWindow w).window .down 4)) (h2 : TranslationFits ((readyWindow w).window .down 4)) :
    EnableChecked w :=
  ⟨readyWindow_manager w, h.1, h1, h2, h.2.1, fun k hk => absurd (h.2.2.symm.trans hk) (by simp)⟩

theorem witness_Enable_overlap :
    EnableChecked overlapping ∧ ∃ v, v ≠ (4 : Fin 16) ∧ ((readyWindow overlapping).window .down v).state ≠ .disabled ∧
      ((readyWindow overlapping).window .down v).space = ((readyWindow overlapping).window .down 4).space ∧
      ((readyWindow overlapping).window .down 4).base.toNat ≤ ((readyWindow overlapping).window .down v).limit.toNat ∧
      ((readyWindow overlapping).window .down v).base.toNat ≤ ((readyWindow overlapping).window .down 4).limit.toNat :=
  ⟨enableChecked_of_check (by decide) (by unfold AddressesAligned; decide) (by unfold TranslationFits; decide), 1, by decide⟩

theorem witness_Enable_accepted :
    EnableChecked touching ∧ ∀ v, v ≠ (4 : Fin 16) → ((readyWindow touching).window .down v).state ≠ .disabled →
      ((readyWindow touching).window .down v).space = ((readyWindow touching).window .down 4).space →
      ((readyWindow touching).window .down v).limit.toNat < ((readyWindow touching).window .down 4).base.toNat ∨
      ((readyWindow touching).window .down 4).limit.toNat < ((readyWindow touching).window .down v).base.toNat :=
  ⟨enableChecked_of_check (by decide) (by unfold AddressesAligned; decide) (by unfold TranslationFits; decide), by decide⟩

theorem witness_EnableAddressChecks :
    lastPage.limit = 0xFFFFFFFFFF ∧ AddressesAligned lastPage ∧ TranslationFits lastPage ∧
      ManagerCanPresent five (readyWindow { lastPage with limit := 0xFFFFFFFFFE }) ∧
      ((readyWindow { lastPage with limit := 0xFFFFFFFFFE }).window .down 4).state = .disabled ∧
      ¬ (AddressesAligned ((readyWindow { lastPage with limit := 0xFFFFFFFFFE }).window .down 4) ∧
        TranslationFits ((readyWindow { lastPage with limit := 0xFFFFFFFFFE }).window .down 4)) :=
  ⟨by decide, by unfold AddressesAligned; decide, by unfold TranslationFits; decide, readyWindow_manager _, by decide,
    by unfold AddressesAligned TranslationFits; decide⟩

/-- Every state of a window, without and with a charge. -/
theorem witness_DisableAndClearFault (st : WindowState) (n : Nat) :
    ManagerCanPresent five (readyWindow { lastPage with state := st, inFlight := n }) ∧
      ((readyWindow { lastPage with state := st, inFlight := n }).window .down 4).state = st ∧
      ((readyWindow { lastPage with state := st, inFlight := n }).window .down 4).inFlight = n :=
  ⟨readyWindow_manager _, rfl, rfl⟩

theorem witness_WindowFieldWrite :
    ManagerCanPresent five (readyWindow lastPage) ∧ withField lastPage (.attributes 0x3000) = none ∧
      withField lastPage (.attributes 0x2) = none ∧ withField lastPage (.base 0x10000000000) = none ∧
      withField lastPage (.target 1024) = none ∧ (withField lastPage (.base 0xFFFFFFFFFF)).isSome = true ∧
      (withField lastPage (.target 1023)).isSome = true ∧
      ((readyWindow { lastPage with state := .draining }).window .down 4).state ≠ .disabled ∧
      ((readyWindow lastPage).window .down 4).state = .disabled :=
  ⟨readyWindow_manager _, by decide, by decide, by decide, by decide, by decide, by decide, by decide, by decide⟩

/-! ### Settings -/

/-- An entry in use, with Port U's last slot free. -/
def readyEntry : State := filled .u 15 timing

theorem witness_IdentityWrite :
    ManagerCanPresent five readyEntry ∧ 1023 < (1024 : Word32).toNat ∧ (1023 : Word32).toNat ≤ 1023 ∧
      (∃ e x, readyEntry.entry e = some x ∧ (originPort x.dir = .d ∨ forwardPort x.dir = .d)) ∧
      (∀ e, (readyWindow lastPage).entry e = none) ∧ forwardPort .down = .d ∧
      (∃ w, ((readyWindow { lastPage with state := .active, target := 1023 }).window .down w).state ≠ .disabled ∧
        ((readyWindow { lastPage with state := .active, target := 1023 }).window .down w).target.toNat = (1023 : Word32).toNat) ∧
      ∀ t w, forwardPort t = .d → ((readyWindow lastPage).window t w).state ≠ .disabled →
        ((readyWindow lastPage).window t w).target.toNat ≠ (1023 : Word32).toNat :=
  ⟨managerCanPresent_of_check (by decide) (by decide), by decide, by decide, ⟨0, _, rfl, .inr rfl⟩, by decide, rfl,
    ⟨4, by decide⟩, fun t => by cases t <;> decide⟩

/-- The stall timer's law at a port without and with its timer running. -/
theorem witness_TstallWrite :
    (ManagerCanPresent five ready ∧ PortTimer (ready.port .d) ∧ 3 < (4 : Word32).toNat ∧
      ((3 : Word32).toNat, TStall.ms10) ∈ [(0, TStall.off), (1, .us100), (2, .ms1), (3, .ms10)] ∧
      ¬ ((ready.port .d).link = .up ∧ (ready.port .d).egress ≠ [] ∧ (ready.port .d).credits = 0)) ∧
      ManagerCanPresent five (filled .u 15 stalling) ∧ PortTimer ((filled .u 15 stalling).port .d) ∧
      ((filled .u 15 stalling).port .d).link = .up ∧ ((filled .u 15 stalling).port .d).egress ≠ [] ∧
      ((filled .u 15 stalling).port .d).credits = 0 :=
  ⟨⟨ready_manager, by unfold PortTimer; decide, by decide, by decide, by decide⟩,
    managerCanPresent_of_check (by decide) (by decide), by unfold PortTimer; decide, by decide, by decide, by decide⟩

/-- The reserves' bounds: 32 is in range, 33 is not; with 56 entries DOWN in use a reserve of 8 UP fits and 9 does not. -/
theorem witness_ReserveWrite :
    ManagerCanPresent five ready ∧ 32 < (33 : Word32).toNat ∧
      ((32 : Word32).toNat ≤ 32 ∧ (32 : Word32).toNat + ready.reserve .up ≤ 64 ∧
        ready.inUse .up + max (32 : Word32).toNat (ready.inUse .down) ≤ 64) ∧
      ManagerCanPresent five (filled .u 15 (loaded 0 56 bridge)) ∧
      (filled .u 15 (loaded 0 56 bridge)).inUse .down + max (8 : Word32).toNat ((filled .u 15 (loaded 0 56 bridge)).inUse .up) = 64 ∧
      64 < (filled .u 15 (loaded 0 56 bridge)).inUse .down + max (9 : Word32).toNat ((filled .u 15 (loaded 0 56 bridge)).inUse .up) :=
  ⟨ready_manager, by decide, by decide, managerCanPresent_of_check (by decide) (by decide), by decide, by decide⟩

theorem witness_TctoAndLockWrites :
    ManagerCanPresent five ready ∧ 4 < (5 : Word32).toNat ∧
      ((4 : Word32).toNat, TCto.ms512) ∈ [(0, TCto.off), (1, .ms1), (2, .ms8), (3, .ms64), (4, .ms512)] ∧
      65535 < (65536 : Word32).toNat ∧ (65535 : Word32).toNat ≤ 65535 :=
  ⟨ready_manager, by decide, by decide, by decide, by decide⟩

theorem witness_NoticeSettingWrites :
    (ManagerCanPresent five ready ∧ ready.notices.targetPort = none) ∧
      (ManagerCanPresent five (filled .u 15 backlog) ∧ (filled .u 15 backlog).notices.targetPort ≠ none) ∧
      2 < (3 : Word32).toNat ∧
      ((2 : Word32).toNat, NoticeClass.urgent) ∈ [(0, NoticeClass.off), (1, .routine), (2, .urgent)] ∧
      ((1 : Word32).toNat, Port.u) ∈ [(1, Port.u), (2, .d)] ∧ 1023 < (1024 : Word32).toNat ∧ (1023 : Word32).toNat ≤ 1023 :=
  ⟨⟨ready_manager, rfl⟩, ⟨managerCanPresent_of_check (by decide) (by decide), by decide⟩, by decide, by decide, by decide,
    by decide, by decide⟩

theorem witness_ManagerAndDividerWrites :
    ManagerCanPresent five ready ∧ 2 ≤ (0x82000005 : Word32).toNat / 2 ^ 24 % 4 ∧ 1023 < (0x80000400 : Word32).toNat % 2 ^ 16 ∧
      ((0xFD0003FF : Word32).toNat / 2 ^ 24 % 4 < 2 ∧ (0xFD0003FF : Word32).toNat % 2 ^ 16 ≤ 1023) ∧
      (24 : Word32).toNat < 25 ∧ 200 < (201 : Word32).toNat ∧ (25 ≤ (25 : Word32).toNat ∧ (200 : Word32).toNat ≤ 200) :=
  ⟨ready_manager, by decide, by decide, by decide, by decide, by decide, by decide⟩

theorem witness_SoftReset : ManagerCanPresent five readyEntry := managerCanPresent_of_check (by decide) (by decide)

/-- (5, U) is no manager, and Port U's last slot is free. -/
def foreign : State := filled .u 15 othersOnly

/-- The judgement's clauses: no field; denied; BAD_LENGTH, inside a field and at one; READ_ONLY; values of BREAK, RESET and the command field;
the lock objects; and a CW that spells DIVIDER_WRITE. -/
theorem witness_RegisterWrite :
    CanPresent five ready ∧ (selectLock 0x0100020000 = none ∧ selectField 0x0100020000 = none) ∧
      (CanPresent five foreign ∧ selectField Field.divider.address = some (.divider, true) ∧
        Field.divider.open? = false ∧ foreign.manager five.node five.port = false) ∧
      ready.manager five.node five.port = true ∧ selectField 0x000010030C = some (.base .down 3, false) ∧
      ((5 : BitVec 16).toNat ≠ Field.divider.width ∧ (4 : BitVec 16).toNat = Field.divider.width) ∧
      Field.writable .msCount = false ∧ numBE [0, 0, 0, 2] ≠ 1 ∧ numBE [0, 0, 0, 0] = 0 ∧ 3 < numBE [0, 0, 0, 4] ∧
      (1 : BitVec 16).toNat ≠ 4 ∧
      requestOf (.dividerWrite five 25) ready = some (.u, requestFor five .cw Field.divider.address 4 [0, 0, 0, 25] ready) :=
  ⟨canPresent_of_check (by decide), by decide, ⟨canPresent_of_check (by decide), by decide, by decide, by decide⟩, by decide,
    by decide, by decide, by decide, by decide, by decide, by decide, by decide, by decide⟩

/-! ### Laws of every step -/

/-- A command at the front of the queue. -/
def queue (c : Instr) (s : State) : State := { s with pending := [c] }

/-- A state before each change of a link state; the stall expiry as a row and at a tick. -/
theorem witness_LinkStateChanges :
    (∀ s ∈ [queue (.linkEstablishment .u) halfUp, queue (.linkLoss .u) halfStalled, queue .powerUpReset bridge,
        queue (.creditArrival .u 16) halfStalled], ∃ t, step s = .next t ∧ (t.port .u).link ≠ (s.port .u).link) ∧
      (∀ s ∈ [queue (.stallTimerExpiry .d) stalling,
        counted 99 0 (onPort .d (fun x => { x with stallTimer := some 0 }) stalling)],
          ∃ t, step s = .next t ∧ (t.port .d).link ≠ (s.port .d).link) := by
  have h : ∀ (p : Port) (s : State), (match step s with
      | .next t => decide ((t.port p).link ≠ (s.port p).link)
      | _ => false) = true → ∃ t, step s = .next t ∧ (t.port p).link ≠ (s.port p).link := by
    intro p s hs
    obtain ⟨t, ht⟩ := step_answers_next s
    rw [ht] at hs
    exact ⟨t, ht, of_decide_eq_true hs⟩
  constructor
  · intro s hs
    simp only [List.mem_cons, List.not_mem_nil, or_false] at hs
    rcases hs with rfl | rfl | rfl | rfl <;> exact h _ _ (by decide)
  · intro s hs
    simp only [List.mem_cons, List.not_mem_nil, or_false] at hs
    rcases hs with rfl | rfl <;> exact h _ _ (by decide)

theorem witness_PortLaw : PortLaw jam ∧ PortLaw bridge ∧ PortLaw halfStalled ∧ PortLaw halfUp ∧ ∃ t, step jam = .next t :=
  ⟨jam_portLaw,
    portLaw_of_check (by unfold PortBounds PortLinks PortTimer; decide) (by unfold PortBounds PortLinks PortTimer; decide),
    portLaw_of_check (by unfold PortBounds PortLinks PortTimer; decide) (by unfold PortBounds PortLinks PortTimer; decide),
    portLaw_of_check (by unfold PortBounds PortLinks PortTimer; decide) (by unfold PortBounds PortLinks PortTimer; decide),
    step_answers_next _⟩

/-- Windows in force that meet the laws: ACTIVE, DRAINING, and FAULTED with a record. -/
def shutters : State :=
  table26 { lastPage with
    state := .faulted, fault := some { address := 0, node := 5, status := .timeout, later := 255 } }

theorem witness_WindowLaws :
    RecordLaw shutters ∧ EnabledLaw shutters ∧ OverlapLaw shutters ∧ ∃ t, step shutters = .next t := by
  refine ⟨fun t => ?_, fun t => ?_, overlapLaw_of_check (by decide), step_answers_next _⟩
  · cases t <;> decide
  · cases t <;> decide

theorem witness_TargetsApart :
    ResetLaw shutters ∧ TargetLaw shutters ∧ ResetLaw State.reset ∧ ∃ t, step shutters = .next t := by
  refine ⟨fun h => absurd h (by decide), fun t => ?_, fun _ => rfl, step_answers_next _⟩
  cases t <;> decide

theorem witness_EntriesAndPackets : EntryLaw jam ∧ EgressLaw jam ∧ ∃ t, step jam = .next t :=
  ⟨entryLaw_of_check (by decide), egressLaw_of_check (by decide), step_answers_next _⟩

theorem witness_TableCounts :
    EntryLaw doneState ∧ ChargeLaw doneState ∧ DoneLaw doneState ∧ ReserveLaw doneState ∧ ∃ t, step doneState = .next t := by
  refine ⟨entryLaw_of_check (by decide), fun t => ?_, doneLaw_of_check (by decide), ⟨fun x => ?_, by decide⟩, step_answers_next _⟩
  · cases t <;> decide
  · cases x <;> decide

theorem witness_LockLaw : LockLaw grantWaits ∧ LockLaw (locked l2) ∧ ∃ t, step grantWaits = .next t :=
  ⟨lockLaw_of_check (by decide), lockLaw_of_check (by decide), step_answers_next _⟩

theorem witness_NoticeAndTimebase : NoticeLaw (noted 16) ∧ TimebaseLaw (noted 16) ∧ ∃ t, step (noted 16) = .next t :=
  ⟨by unfold NoticeLaw; decide, by unfold TimebaseLaw; decide, step_answers_next _⟩

/-- A head that waits, as no completion slot is free. -/
def held : State := onPort .u (fun x => { x with headWaits := true }) (filled .u 16 (withHead identRead bridge))

theorem witness_EveryEventSettles : PortLaw held ∧ ResetLaw held ∧ AtRest held ∧ ∃ t, step held = .next t :=
  ⟨portLaw_of_check (by unfold PortBounds PortLinks PortTimer; decide) (by unfold PortBounds PortLinks PortTimer; decide),
    fun h => absurd h (by decide), ⟨fun p => by cases p <;> decide, fun p => by cases p <;> decide⟩, step_answers_next _⟩

theorem witness_MillisecondCount :
    bridge.resetN = true ∧ ({ bridge with timebase := { Timebase.reset with msCount := 0xFFFFFFFF } } : State).resetN = true ∧
      State.reset.resetN = false := ⟨rfl, rfl, rfl⟩

end Sys2Proof.Tests
end

section
/-! Shared facts about requests of the bridge's own: which field an address selects, and what a manager's
write becomes (R48 to R50, R54, R173, R174, R179). -/

namespace Sys2Proof.Machine

open Sys2Proof.Safety

/-! ## The parts of a CONTROL address (R174, Table 11-5) -/

section Parts

variable {cls index offset : Nat} (hc : cls < 256) (hi : index < 256) (ho : offset < 256)
include hc hi ho

theorem controlAddress_toNat : (controlAddress cls index offset).toNat = cls * 65536 + index * 256 + offset := by
  rw [controlAddress, BitVec.toNat_ofNat, Nat.mod_eq_of_lt (by omega)]

theorem classPart_controlAddress : classPart (controlAddress cls index offset) = cls := by
  rw [classPart, bitsOf, controlAddress_toNat hc hi ho]
  omega

theorem indexPart_controlAddress : indexPart (controlAddress cls index offset) = index := by
  rw [indexPart, bitsOf, controlAddress_toNat hc hi ho]
  omega

theorem offsetPart_controlAddress : offsetPart (controlAddress cls index offset) = offset := by
  rw [offsetPart, bitsOf, controlAddress_toNat hc hi ho]
  omega

theorem bitsOf_controlAddress_high : bitsOf (controlAddress cls index offset).toNat 39 24 = 0 := by
  rw [bitsOf, controlAddress_toNat hc hi ho]
  omega

theorem selectField_controlAddress :
    selectField (controlAddress cls index offset) = objectField cls index offset := by
  simp [selectField, bitsOf_controlAddress_high hc hi ho, classPart_controlAddress hc hi ho,
    indexPart_controlAddress hc hi ho, offsetPart_controlAddress hc hi ho]

/-- The lock unit has the first two offsets of class 0x30 only (R54, R185). -/
theorem selectLock_controlAddress (h : cls ≠ 0x30 ∨ 8 ≤ offset) :
    selectLock (controlAddress cls index offset) = none := by
  simp only [selectLock, classPart_controlAddress hc hi ho, indexPart_controlAddress hc hi ho,
    offsetPart_controlAddress hc hi ho]
  rcases h with h | h
  · rw [if_neg (fun hk => h hk.2)]
  · split
    · split
      · split
        · omega
        · omega
        · rfl
      · rfl
    · rfl

end Parts

/-! ## The fields of the objects (Table 9-1) -/

theorem objectField_port (p : Port) (offset : Nat) : objectField 0x02 (portIndex p) offset = portField p offset := by
  cases p <;> rfl

theorem objectField_window (t : Dir) (w : Fin 16) (offset : Nat) :
    objectField (tableClass t) w.val offset = windowField t w offset := by
  cases t <;> simp [objectField, tableClass]

theorem objectField_entry (e : Fin 64) (offset : Nat) : objectField 0x21 e.val offset = entryField e offset := by
  simp [objectField]

theorem objectField_lock (k : Fin 8) (offset : Nat) : objectField 0x30 k.val offset = lockField k offset := by
  simp [objectField]

theorem objectField_manager (i : Fin 4) : objectField 0x50 i.val 0x00 = some (.manager i, true) := by
  simp [objectField]

/-- The field `f` stands at an address whose parts select it, outside the lock unit's offsets (Table 11-10). -/
def Field.PlacedAt (f : Field) (cls index offset : Nat) : Prop :=
  f.address = controlAddress cls index offset ∧ cls < 256 ∧ index < 256 ∧ offset < 256 ∧
    (cls ≠ 0x30 ∨ 8 ≤ offset) ∧ objectField cls index offset = some (f, true)

theorem Field.placedAt_port {f : Field} {p : Port} {offset : Nat}
    (ha : f.address = controlAddress 0x02 (portIndex p) offset) (ho : offset < 256)
    (hf : portField p offset = some (f, true)) : f.PlacedAt 0x02 (portIndex p) offset :=
  ⟨ha, by decide, by cases p <;> decide, ho, .inl (by decide), by rw [objectField_port, hf]⟩

theorem Field.placedAt_window {f : Field} {t : Dir} {w : Fin 16} {offset : Nat}
    (ha : f.address = controlAddress (tableClass t) w.val offset) (ho : offset < 256)
    (hf : windowField t w offset = some (f, true)) : f.PlacedAt (tableClass t) w.val offset :=
  ⟨ha, by cases t <;> decide, by omega, ho, .inl (by cases t <;> decide), by rw [objectField_window, hf]⟩

theorem Field.placedAt_entry {f : Field} {e : Fin 64} {offset : Nat}
    (ha : f.address = controlAddress 0x21 e.val offset) (ho : offset < 256)
    (hf : entryField e offset = some (f, true)) : f.PlacedAt 0x21 e.val offset :=
  ⟨ha, by decide, by omega, ho, .inl (by decide), by rw [objectField_entry, hf]⟩

theorem Field.placedAt_lock {f : Field} {k : Fin 8} {offset : Nat}
    (ha : f.address = controlAddress 0x30 k.val offset) (ho : 8 ≤ offset ∧ offset < 256)
    (hf : lockField k offset = some (f, true)) : f.PlacedAt 0x30 k.val offset :=
  ⟨ha, by decide, by omega, ho.2, .inr ho.1, by rw [objectField_lock, hf]⟩

/-- An object that is alone in its class stands at index 0. -/
theorem Field.placedAt_single {f : Field} {cls offset : Nat} (ha : f.address = controlAddress cls 0 offset)
    (hn : cls < 256 ∧ offset < 256 ∧ cls ≠ 0x30) (hf : objectField cls 0 offset = some (f, true)) :
    f.PlacedAt cls 0 offset :=
  ⟨ha, hn.1, by decide, hn.2.1, .inl hn.2.2, hf⟩

/-- Every field has its place (Table 11-10). -/
theorem Field.exists_placedAt (f : Field) : ∃ cls index offset, f.PlacedAt cls index offset := by
  cases f with
  | linkState p | identity p | creditsHeld p | slotsInUse p | tStall p | admitted p | refused p | stray p | discard p =>
    exact ⟨_, _, _, placedAt_port rfl (by decide) rfl⟩
  | windowState t w | attributes t w | base t w | limit t w | translatedBase t w | target t w | inFlight t w
  | hitCount t w | faultRecord t w | faultAddress t w | command t w =>
    exact ⟨_, _, _, placedAt_window rfl (by decide) rfl⟩
  | entryState e | entryDirection e | entryKind e | entryNode e | entryWindow e =>
    exact ⟨_, _, _, placedAt_entry rfl (by decide) rfl⟩
  | lockHolder k | generation k | waiterCount k | tLease k | tWait k | breakField k =>
    exact ⟨_, _, _, placedAt_lock rfl (by decide) rfl⟩
  | reserve x | tcto x | inUse x => cases x <;> exact ⟨_, _, _, placedAt_single rfl (by decide) rfl⟩
  | noticeClass n => cases n <;> exact ⟨_, _, _, placedAt_single rfl (by decide) rfl⟩
  | manager i => exact ⟨_, _, _, rfl, by decide, by omega, by decide, .inl (by decide), objectField_manager i⟩
  | vendorCode | partCode | revision | msCount | noticePort | noticeNode | nextSequence | queueDepth | droppedSince
  | droppedTotal | divider | reset => exact ⟨_, _, _, placedAt_single rfl (by decide) rfl⟩

/-- A field's address selects the field, whole (R174). -/
theorem selectField_address (f : Field) : selectField f.address = some (f, true) := by
  obtain ⟨cls, index, offset, ha, hc, hi, ho, -, hf⟩ := f.exists_placedAt
  rw [ha, selectField_controlAddress hc hi ho, hf]

/-- No field of the management agent is an object of the lock unit (R54, R185). -/
theorem selectLock_address (f : Field) : selectLock f.address = none := by
  obtain ⟨cls, index, offset, ha, hc, hi, ho, hk, -⟩ := f.exists_placedAt
  rw [ha, selectLock_controlAddress hc hi ho hk]

end Sys2Proof.Machine
end

section
/-! What a request to the bridge itself becomes when it can be taken at once (R48 to R50, R54, R173, R179). -/

namespace Sys2Proof.Machine

open Sys2Proof.Safety

/-! ## The take of a control request -/

/-- A CONTROL read or confirmed write to the port's identity, with 1 to 256 bytes and the payload of its kind, passes
the form check and is handed off (R52, R54). -/
theorem disposal_control {p : Port} {r : Request} {s : State} (hdst : r.dst = (s.port p).identity)
    (hspace : r.space = controlSpace) (hkind : r.kind ≠ .pw) (hlen : 1 ≤ r.length.toNat ∧ r.length.toNat ≤ 256)
    (hdata : r.data.length = if r.kind = .rd then 0 else r.length.toNat) : disposal p r s = .handOff := by
  have hcode : Space.ofCode controlSpace = none := rfl
  have hpos : r.length.toNat ≠ 0 := by omega
  have hmax : ¬ 256 < r.length.toNat := by omega
  have hform : malformed (s.port p).identity r = false := by
    cases hk : r.kind with
    | rd => simpa [malformed, hspace, hpos, hmax, hk] using hdata
    | cw => simpa [malformed, hspace, hpos, hmax, hk] using hdata
    | pw => exact absurd hk hkind
  simp [disposal, hform, hdst, hspace, hcode, hkind]

/-- The head in an otherwise empty buffer gets a slot: one is free and no claim waits (R58, R104). -/
theorem slotForHead_of_canPresent {q : Requester} {s : State} (h : CanPresent q s) : slotForHead q.port s = true := by
  obtain ⟨⟨hslots, -, -⟩, hlink, -, hfree⟩ := h
  have hf : slotFree q.port s = true := by simp [slotFree, hlink, hfree]
  have hclaim := hslots q.port
  simp only [nextClaim, hf, if_true] at hclaim
  simp [slotForHead, hf, hclaim]

/-- Neither slots nor claims depend on what the ingress buffers hold. -/
theorem slotForHead_congr (p : Port) (s : State) (l : List Request) :
    slotForHead p (s.setPort p { s.port p with ingress := l }) = slotForHead p s := by
  cases p <;> rfl

/-- The take of a request that was alone in the buffer, in the words of the statements (R50). -/
theorem take_presented (q : Requester) (r : Request) (s : State) (h : (s.port q.port).ingress = []) :
    take q.port true (s.setPort q.port { s.port q.port with ingress := [r] }) = taken q s := by
  simp [take, taken, ← h]

/-- A control request of the requester's own is handed off as soon as it is presented (R48, R50, R54). -/
theorem presentRequest_control {q : Requester} {kind : ReqKind} {a : Addr} {n : BitVec 16} {data : List Byte} {s : State}
    (h : CanPresent q s) (hkind : kind ≠ .pw) (hlen : 1 ≤ n.toNat ∧ n.toNat ≤ 256)
    (hdata : data.length = if kind = .rd then 0 else n.toNat) :
    presentRequest q.port (requestFor q kind a n data s) s =
      settleWith (handOff q.port (requestFor q kind a n data s) (taken q s)).2
        (handOff q.port (requestFor q kind a n data s) (taken q s)).1 := by
  have hempty := h.2.2.1
  rw [presentRequest_of_empty _ _ _ h.2.1 hempty]
  generalize hr : requestFor q kind a n data s = r
  have hd : disposal q.port r (s.setPort q.port { s.port q.port with ingress := [r] }) = .handOff := by
    subst hr
    exact disposal_control (by simp [requestFor]) rfl hkind hlen hdata
  rw [judgeHead_of_take _ _ r [] (by simp) (by rw [hd, atHand, slotForHead_congr, slotForHead_of_canPresent h]), hd,
    carryOut, take_presented q r s hempty]

/-! ## A manager's write of a field (R173, R175, R179) -/

theorem Field.width_eq (f : Field) : f.width = 4 ∨ f.width = 8 := by
  cases f <;> simp [Field.width]

theorem Field.toNat_width (f : Field) : (BitVec.ofNat 16 f.width).toNat = f.width := by
  rcases f.width_eq with h | h <;> rw [h] <;> rfl

/-- The completion that the agent places is the answer of the statements (Table 5-2). -/
theorem place_answerOf (q : Requester) (st : Status) (data : List Byte) (s : State) :
    place q.port (answerOf q.node q.tag st data) s = answered q st data s := rfl

@[simp] theorem taken_window (q : Requester) (s : State) (t : Dir) (w : Fin 16) :
    (taken q s).window t w = s.window t w := by simp [taken]

@[simp] theorem answered_window (q : Requester) (st : Status) (data : List Byte) (s : State) (t : Dir) (w : Fin 16) :
    (answered q st data s).window t w = s.window t w := by simp [answered]

@[simp] theorem taken_manager (q : Requester) (s : State) (node : Node) (p : Port) :
    (taken q s).manager node p = s.manager node p := by simp [taken, State.manager]

/-- A manager's whole write of a writable field is judged by the field's owner (R179 step 5). -/
theorem manage_write {p : Port} {r : Request} {f : Field} {s : State} (ha : r.address = f.address)
    (hf : f.writable = true) (hm : s.manager r.src p = true) (hlen : r.length.toNat = f.width) (hkind : r.kind ≠ .rd) :
    manage p r s =
      { status := (writeField f (numBE r.data) s).1, data := [], state := (writeField f (numBE r.data) s).2,
        raises := fieldRaises f (numBE r.data) s } := by
  unfold manage
  simp only [ha, selectField_address, hm, hlen, hf]
  cases hk : r.kind with
  | rd => exact absurd hk hkind
  | cw => simp
  | pw => simp

/-- A manager's write that its port can take at once: the owner judges the value, the answer is placed, and the event
settles with what the write raises (R54, R173, R179). -/
theorem presentWrite_of_manager {q : Requester} {f : Field} {v : Nat} {s : State} (h : ManagerCanPresent q s)
    (hf : f.writable = true) (hv : v < 256 ^ f.width) :
    presentWrite q f v s =
      settleWith (fieldRaises f v (taken q s))
        (answered q (writeField f v (taken q s)).1 [] (writeField f v (taken q s)).2) := by
  have hw := f.toNat_width
  have hm := manage_write (p := q.port) (s := taken q s)
    (r := requestFor q .cw f.address (BitVec.ofNat 16 f.width) (bytesBE f.width v) s) rfl hf
    ((taken_manager q s _ _).trans h.2) hw (by simp [requestFor])
  have hvalue : numBE (requestFor q .cw f.address (BitVec.ofNat 16 f.width) (bytesBE f.width v) s).data = v := by
    simp [requestFor, numBE_bytesBE, Nat.mod_eq_of_lt hv]
  rw [hvalue] at hm
  rw [presentWrite, presentRequest_control h.1 (by decide)
    (by rw [hw]; rcases f.width_eq with h' | h' <;> omega) (by simp [hw])]
  simp only [handOff, requestFor, selectLock_address] at hm ⊢
  rw [hm, place_answerOf]

/-! ## What an answer leaves at rest -/

/-- Nothing that rest depends on changes with a take: the head that waited, if any, is gone. -/
theorem quiet_taken {q : Requester} {s : State} (h : Quiet s) : Quiet (taken q s) := by
  obtain ⟨hslots, hu, hd⟩ := h
  have hport : ∀ p, ((taken q s).port p).link = (s.port p).link ∧
      ((taken q s).port p).completions = (s.port p).completions ∧
      ((s.port p).headWaits = false → ((taken q s).port p).headWaits = false) := by
    intro p
    by_cases hp : p = q.port
    · subst hp; simp [taken]
    · simp [taken, hp]
  refine ⟨fun p => ?_, (hport .u).2.2 hu, (hport .d).2.2 hd⟩
  rw [nextClaim_congr p s _ (hport p).1 (by rw [(hport p).2.1]) (by simp [taken]) (by simp [taken]) (by simp [taken])]
  exact hslots p

theorem nextClaim_eq_none_iff (p : Port) (s : State) :
    nextClaim p s = none ↔ (slotFree p s = true → topClaim p s = none) := by
  cases hf : slotFree p s <;> simp [nextClaim, hf]

@[simp] theorem topClaim_setPort (p q : Port) (x : PortState) (s : State) :
    topClaim p (s.setPort q x) = topClaim p s := by
  cases q <;> rfl

/-- An answer takes a slot and gives none, so no claim comes due. -/
theorem quiet_answered {q : Requester} {st : Status} {data : List Byte} {s : State} (h : Quiet s) :
    Quiet (answered q st data s) := by
  obtain ⟨hslots, hu, hd⟩ := h
  have hport : ∀ p, ((answered q st data s).port p).headWaits = (s.port p).headWaits ∧
      (slotFree p (answered q st data s) = true → slotFree p s = true) := by
    intro p
    by_cases hp : p = q.port
    · subst hp
      simp only [answered, State.port_setPort_self, slotFree, List.length_append, Bool.and_eq_true,
        decide_eq_true_eq, true_and]
      exact fun hf => ⟨hf.1, by omega⟩
    · simp [answered, slotFree, hp]
  refine ⟨fun p => (nextClaim_eq_none_iff p _).2 fun hf => ?_, (hport .u).1.trans hu, (hport .d).1.trans hd⟩
  rw [answered, topClaim_setPort]
  exact (nextClaim_eq_none_iff p s).1 (hslots p) ((hport p).2 hf)

/-- A manager's write that raises nothing and leaves the part quiet ends with its answer. -/
theorem presentWrite_of_quiet {q : Requester} {f : Field} {v : Nat} {s u : State} {st : Status}
    (h : ManagerCanPresent q s) (hf : f.writable = true) (hv : v < 256 ^ f.width)
    (hr : fieldRaises f v (taken q s) = []) (hw : writeField f v (taken q s) = (st, u)) (hu : Quiet u) :
    presentWrite q f v s = answered q st [] u := by
  rw [presentWrite_of_manager h hf hv, hr, hw, settleWith_of_quiet _ _ (quiet_answered hu), raiseAll_nil]

/-- A manager's write that its owner refuses leaves the part as the take leaves it, but for the answer (R179). -/
theorem presentWrite_refused {q : Requester} {f : Field} {v : Nat} {s : State} {st : Status}
    (h : ManagerCanPresent q s) (hf : f.writable = true) (hv : v < 256 ^ f.width)
    (hr : fieldRaises f v (taken q s) = []) (hw : writeField f v (taken q s) = (st, taken q s)) :
    presentWrite q f v s = answered q st [] (taken q s) :=
  presentWrite_of_quiet h hf hv hr hw (quiet_taken h.1.1)

end Sys2Proof.Machine
end

section
/-! The window tables (02): the power-up values, and ENABLE's two address checks. -/

namespace Sys2Proof.Machine

open Sys2Proof.Safety

/-! ## Power-up (R45) -/

/-- Every window of the part in reset holds the values of Table 2-9. -/
theorem State.window_reset (d : Dir) (w : Fin 16) : State.reset.window d w = Window.reset := by
  cases d <;> simp [State.reset, State.window]

/-- Settles O3: both tables of the state after power-up are those of the part in reset. -/
theorem powerUpSetsWindows : Obligations.PowerUpSetsWindows := by
  intro s
  refine ⟨_, rfl, fun d w => Eq.trans ?_ (State.window_reset d w)⟩
  cases d <;> rfl

/-! ## ENABLE's address checks (R31) -/

theorem Window.aligned_iff (w : Window) : w.aligned = true ↔ AddressesAligned w := by
  simp [Window.aligned, AddressesAligned, and_assoc]

theorem Window.fits_iff (w : Window) : w.fits = true ↔ TranslationFits w :=
  decide_eq_true_iff

/-- Where the translated range fits, the translation of an address of the window neither wraps below nor above (R28, R31). -/
theorem Window.translate_toNat {w : Window} {a : Addr} (hlo : w.base.toNat ≤ a.toNat) (hhi : a.toNat ≤ w.limit.toNat)
    (hfits : TranslationFits w) : (w.translate a).toNat = w.translatedBase.toNat + (a.toNat - w.base.toNat) := by
  have hsub : (a - w.base).toNat = a.toNat - w.base.toNat := BitVec.toNat_sub_of_le hlo
  unfold TranslationFits at hfits
  rw [Window.translate, BitVec.toNat_add, hsub, Nat.mod_eq_of_lt (by omega), Nat.add_comm]

/-- A DISABLED window that fails check 1 or check 2 is refused BAD_VALUE (R30, R31). -/
theorem State.enableStatus_of_addresses {s : State} {t : Dir} {w : Fin 16} (hd : (s.window t w).state = .disabled)
    (h : ¬ (AddressesAligned (s.window t w) ∧ TranslationFits (s.window t w))) : s.enableStatus t w = .badValue := by
  rw [← Window.aligned_iff, ← Window.fits_iff] at h
  cases ha : (s.window t w).aligned with
  | false => simp [State.enableStatus, hd, ha]
  | true =>
    have hf : (s.window t w).fits = false := by simpa [ha] using h
    simp [State.enableStatus, hd, ha, hf]

/-- A refused ENABLE leaves the window as it is (R34). -/
theorem enableWindow_refused {s : State} {t : Dir} {w : Fin 16} (h : s.enableStatus t w ≠ .ok) :
    enableWindow t w s = (s.enableStatus t w, s) := by
  unfold enableWindow
  split
  · next hok => exact absurd hok h
  · rfl

/-- ENABLE of a manager whose checks fail is answered with the outcome of the first that does, and changes nothing
(R30, R34). -/
theorem exec_enable_refused {q : Requester} {t : Dir} {w : Fin 16} {s : State} (h : ManagerCanPresent q s)
    (hs : (taken q s).enableStatus t w ≠ .ok) :
    exec (.enable q t w) s = .next (answered q ((taken q s).enableStatus t w) [] (taken q s)) :=
  congrArg Host.Outcome.next (presentWrite_refused h rfl (by simp [Field.width]) rfl (enableWindow_refused hs))

/-- Settles O40: the translated range starts at the translated base and, as it fits, does not wrap; a failed check is
the agent's refusal. -/
theorem enableAddressChecks : Obligations.EnableAddressChecks := by
  refine ⟨fun w => ⟨w.aligned_iff, w.fits_iff⟩, fun w hlimit => ?_, fun w haligned hfits => ?_,
    fun q t w s h hdisabled hfail => ?_⟩
  · rw [hlimit]
    decide
  · obtain ⟨-, -, hsize, -⟩ := haligned
    exact Window.translate_toNat (by omega) (Nat.le_refl _) hfits
  · have hstatus : (taken q s).enableStatus t w = .badValue :=
      State.enableStatus_of_addresses (by rwa [taken_window]) (by rwa [taken_window])
    refine ⟨_, exec_enable_refused h (by rw [hstatus]; decide), by rw [hstatus], ?_⟩
    rw [answered_window, taken_window]

end Sys2Proof.Machine
end

section
/-! The blocks that power-up reset clears: the request table (04), the locks (07) and the notice unit (08). -/

namespace Sys2Proof.Machine

/-! ## The part in reset (R99, R158, R171) -/

/-- Every entry of the part in reset is FREE (R99). -/
@[simp] theorem State.entry_reset (e : Fin 64) : State.reset.entry e = none := by
  simp [State.reset, State.entry]

/-- With every entry FREE, neither direction has one in use (R62, R99). -/
@[simp] theorem State.inUse_reset (x : Dir) : State.reset.inUse x = 0 := by
  simp [State.reset, State.inUse]

/-- Every lock of the part in reset holds the values of R158. -/
@[simp] theorem State.lock_reset (k : Fin 8) : State.reset.lock k = Lock.reset := by
  simp [State.reset, State.lock]

/-- A grant takes the generation after the lock's (R141 step 1). -/
@[simp] theorem Lock.grant_generation (x : Lock) (node : Node) (port : Port) (tag : Tag) :
    (x.grant node port tag).generation = x.generation + 1 := rfl

/-- A stamp takes the unit's next sequence number (R166). -/
@[simp] theorem stamp_sequence (u : NoticeUnit) (r : NoticeRecord) : (stamp u r).sequence = u.nextSequence := rfl

/-- The classes of the part in reset, kind by kind (Table 8-1). -/
theorem State.noticeClass_reset (k : NoticeKind) : State.reset.noticeClass k =
    if k = .absorbedWriteFailed ∨ k = .portStalled ∨ k = .linkDown ∨ k = .creditOverrun then .urgent else .routine := by
  cases k <;> rfl

/-- Settles O4: the request table, the locks and the notice unit after power-up are those of the part in reset, so a
lock's first grant has generation 1 and the first record's stamp sequence 0; without a target port a raise changes nothing. -/
theorem powerUpClearsBlocks : Obligations.PowerUpClearsBlocks := by
  intro s
  refine ⟨_, rfl, State.entry_reset, State.inUse_reset, fun x => ?reserve, fun x => ?tcto, rfl, State.lock_reset,
    fun k node port tag => ?generation, rfl, rfl, rfl, rfl, rfl, rfl, State.noticeClass_reset,
    stamp_sequence NoticeUnit.reset, fun u x => raise_of_no_target x u⟩
  case reserve => cases x <;> rfl
  case tcto => cases x <;> rfl
  case generation =>
    rw [Lock.grant_generation]
    exact congrArg (·.generation + 1) (State.lock_reset k)

end Sys2Proof.Machine
end

section
/-! The egress request queues and the credit flow (06): what a CRD and a departure of the egress head make of a port,
and that neither gives a claim a slot nor makes a head be judged again. -/

namespace Sys2Proof.Machine

open Sys2Proof.Safety

/-! ## The transmitter's choice (R13, R122) -/

theorem PortState.egressReady_iff (x : PortState) : x.egressReady = true ↔ Safety.egressReady x := by
  simp [PortState.egressReady, Safety.egressReady, and_assoc]

/-- The egress head is chosen when it is ready, no CRD waits, and the completion queue is empty or had the last choice. -/
theorem PortState.choice_eq_egress_iff (x : PortState) :
    x.choice = .egress ↔
      x.creditsOwed = 0 ∧ Safety.egressReady x ∧ (x.completions = [] ∨ x.lastChoice = .completion) := by
  rw [← x.egressReady_iff]
  cases hready : x.egressReady with
  | false =>
    have hnever : x.choice ≠ .egress := by
      unfold PortState.choice
      rw [hready]
      cases x.completions.isEmpty <;> dsimp only <;> split_ifs <;> decide
    simp [hnever]
  | true =>
    have hopen : x.link ≠ .down := by
      rw [(x.egressReady_iff.1 hready).1]
      decide
    by_cases howed : 0 < x.creditsOwed
    · simp [PortState.choice, hopen, howed, Nat.ne_of_gt howed]
    · cases hc : x.completions <;> cases hl : x.lastChoice <;>
        simp [PortState.choice, hopen, hready, hc, hl, Nat.eq_zero_of_not_pos howed]

/-! ## A port credited, and a port whose egress head has left (R123, R126) -/

@[simp] theorem PortState.credited_credits (x : PortState) (n : Nat) :
    (x.credited n).credits = min 32 (x.credits + n) := rfl

@[simp] theorem PortState.credited_link (x : PortState) (n : Nat) : (x.credited n).link = .up := rfl

/-- A port that can send its egress head still can with more credit. -/
theorem PortState.choice_credited {x : PortState} (n : Nat) (h : x.choice = .egress) :
    (x.credited n).choice = .egress := by
  rw [choice_eq_egress_iff] at h ⊢
  obtain ⟨howed, ⟨-, hcredit, hqueued⟩, hturn⟩ := h
  have hpos : 0 < (x.credited n).credits := by
    rw [credited_credits]
    omega
  exact ⟨howed, ⟨rfl, hpos, hqueued⟩, hturn⟩

/-- A ready egress head leaves its port as the statements say: the counter reaches 0 exactly from 1 (R122, R126, R13). -/
theorem PortState.sendHead_of_ready {x : PortState} (k : EgressPacket) (rest : List EgressPacket)
    (h : Safety.egressReady x) : x.sendHead k rest = headSent x k rest := by
  have hready : x.egressReady = true := x.egressReady_iff.2 h
  obtain ⟨hup, hcredit, -⟩ := h
  have hlast : x.chose .egress = if x.completions = [] then x.lastChoice else .egress := by
    cases hc : x.completions <;> simp [PortState.chose, hready, hc]
  have hzero : x.credits - 1 = 0 ↔ x.credits = 1 := by omega
  by_cases hstart : x.credits = 1 ∧ rest ≠ []
  · simp [PortState.sendHead, PortState.waitsForCredit, headSent, hlast, hup, hstart]
  · have hstill : ¬ (rest ≠ [] ∧ x.credits = 1) := fun hs => hstart hs.symm
    simp [PortState.sendHead, PortState.waitsForCredit, headSent, hlast, hup, hzero, hstart, hstill]

/-! ## Rest kept -/

/-- A port that stays open or closed, with its completions and its head as they were, leaves the part quiet. -/
theorem quiet_setPort {p : Port} {x : PortState} {s : State} (h : Quiet s)
    (hlink : x.link = .down ↔ (s.port p).link = .down) (hslots : x.completions = (s.port p).completions)
    (hhead : x.headWaits = (s.port p).headWaits) : Quiet (s.setPort p x) := by
  have hport : ∀ q, slotFree q (s.setPort p x) = slotFree q s ∧
      ((s.setPort p x).port q).headWaits = (s.port q).headWaits := by
    intro q
    by_cases hq : q = p
    · subst hq; simp [slotFree, hlink, hslots, hhead]
    · simp [slotFree, hq]
  obtain ⟨hclaims, hu, hd⟩ := h
  refine ⟨fun q => ?_, (hport .u).2.trans hu, (hport .d).2.trans hd⟩
  rw [nextClaim, topClaim_setPort, (hport q).1]
  exact hclaims q

/-- A free slot goes to nobody when no lock and no entry of the done order claims it (R104). -/
theorem topClaim_eq_none_iff (p : Port) (s : State) :
    topClaim p s = none ↔
      (∀ k ∈ allLocks, lockClaim p s k = none) ∧ ∀ e ∈ s.doneOrder, doneClaims p s e = false := by
  unfold topClaim
  cases hl : allLocks.findSome? (lockClaim p s) with
  | none => simpa using fun _ => List.findSome?_eq_none_iff.1 hl
  | some c =>
    have hnot : ¬ ∀ k ∈ allLocks, lockClaim p s k = none := fun hall => by
      rw [List.findSome?_eq_none_iff.2 hall] at hl
      cases hl
    simp [hnot]

/-- An entry that is not DONE claims no slot (R103), so putting one in the table makes no claim. -/
theorem quiet_setEntry {e : Fin 64} {x : Entry} {s : State} (h : Quiet s) (hx : x.state ≠ .done) :
    Quiet (s.setEntry e (some x)) := by
  obtain ⟨hclaims, hu, hd⟩ := h
  refine ⟨fun p => (nextClaim_eq_none_iff p _).2 fun hfree => ?_, hu, hd⟩
  have hnone : topClaim p s = none := (nextClaim_eq_none_iff p s).1 (hclaims p) (by simpa [slotFree] using hfree)
  obtain ⟨hlocks, hdone⟩ := (topClaim_eq_none_iff p s).1 hnone
  refine (topClaim_eq_none_iff p _).2 ⟨hlocks, fun i hi => ?_⟩
  by_cases hie : i = e
  · simp [doneClaims, hie, hx]
  · simpa [doneClaims, State.entry_setEntry, hie] using hdone i hi

/-- A departure leaves its entry PENDING or ISSUED (R79). -/
theorem Entry.departed_state_ne_done (x : Entry) (k : Nat) (setting : TCto) : (x.departed k setting).state ≠ .done := by
  simp only [Entry.departed]
  split <;> decide

/-- What a segment's departure does to the table: nothing, or its entry departed (R79). -/
theorem segmentSent_cases (e : Fin 64) (k : Nat) (s : State) :
    segmentSent e k s = s ∨ ∃ x : Entry, segmentSent e k s = s.setEntry e (some (x.departed k (s.tcto x.dir))) := by
  unfold segmentSent
  split
  · exact .inl rfl
  · split
    · exact .inl rfl
    · split
      · exact .inr ⟨_, rfl⟩
      · exact .inl rfl

@[simp] theorem segmentSent_port (e : Fin 64) (k : Nat) (s : State) (q : Port) :
    (segmentSent e k s).port q = s.port q := by
  rcases segmentSent_cases e k s with h | ⟨x, h⟩
  · rw [h]
  · rw [h, State.port_setEntry]

theorem quiet_segmentSent (e : Fin 64) (k : Nat) {s : State} (h : Quiet s) : Quiet (segmentSent e k s) := by
  rcases segmentSent_cases e k s with hs | ⟨x, hs⟩
  · rwa [hs]
  · rw [hs]
    exact quiet_setEntry h (x.departed_state_ne_done k _)

/-! ## The two commands on a quiet part -/

theorem quiet_credited {p : Port} {s : State} (n : Nat) (h : Quiet s) (hopen : (s.port p).link ≠ .down) :
    Quiet (s.setPort p ((s.port p).credited n)) :=
  quiet_setPort h (by simp [hopen]) rfl rfl

/-- A CRD at an open port credits the port, and nothing else changes where no head waits (R123, R129). -/
theorem exec_creditArrival_of_quiet {p : Port} {i : Byte} {s : State} (h : Quiet s)
    (hopen : (s.port p).link ≠ .down) (hi : 1 ≤ i.toNat ∧ i.toNat ≤ 16) :
    exec (.creditArrival p i) s = .next (s.setPort p ((s.port p).credited i.toNat)) := by
  have harrive : arriveCredit p i s = settle (s.setPort p ((s.port p).credited i.toNat)) := by
    rw [arriveCredit, if_neg hopen, if_pos hi]
  rw [settle_of_quiet _ (quiet_credited _ h hopen)] at harrive
  exact congrArg Host.Outcome.next harrive

/-- The chosen egress head leaves: its port has sent it, and the part stays quiet (R122). -/
theorem exec_egressDeparture_of_quiet {p : Port} {s : State} (h : Quiet s) (hchoice : (s.port p).choice = .egress) :
    ∃ k rest t, exec (.egressDeparture p) s = .next t ∧ Quiet t ∧ t.port p = headSent (s.port p) k rest := by
  obtain ⟨-, hready, -⟩ := (PortState.choice_eq_egress_iff _).1 hchoice
  have ⟨_, _, hqueued⟩ := hready
  obtain ⟨k, rest, hq⟩ := List.exists_cons_of_ne_nil hqueued
  have hsent : Quiet (s.setPort p (headSent (s.port p) k rest)) := quiet_setPort h Iff.rfl rfl rfl
  have hexec : exec (.egressDeparture p) s = execEgressDeparture p s := rfl
  rw [hexec]
  simp only [execEgressDeparture, hchoice, hq, if_true, PortState.sendHead_of_ready _ _ hready]
  refine ⟨k, rest, ?_⟩
  cases k with
  | segment e n _ =>
    have hdeparted := quiet_segmentSent e n hsent
    exact ⟨_, congrArg Host.Outcome.next (settle_of_quiet _ hdeparted), hdeparted, by simp⟩
  | pass | notice => exact ⟨_, congrArg Host.Outcome.next (settle_of_quiet _ hsent), hsent, by simp⟩

/-! ## A CRD and a departure in either order (R124) -/

/-- Settles O14: each of the two commands keeps the part quiet and the other possible, so the counter after both is
its arithmetic in the order taken. -/
theorem creditAndDepartureInEitherOrder : Obligations.CreditAndDepartureInEitherOrder := by
  intro p i j s hquiet hi hi' hj hj'
  refine ⟨fun hchoice => ?_, fun hopen => ?twoCredits⟩
  case twoCredits =>
    have hbetween := quiet_credited i.toNat hquiet hopen
    refine ⟨_, _, exec_creditArrival_of_quiet hquiet hopen ⟨hi, hi'⟩,
      exec_creditArrival_of_quiet hbetween (by simp) ⟨hj, hj'⟩, ?_⟩
    simp only [State.port_setPort_self, PortState.credited_credits]
    omega
  obtain ⟨-, ⟨hup, hcredit, -⟩, -⟩ := (PortState.choice_eq_egress_iff _).1 hchoice
  have hopen : (s.port p).link ≠ .down := by simp [hup]
  refine ⟨hcredit, ?creditFirst, ?departureFirst⟩
  case creditFirst =>
    obtain ⟨k, rest, b, hexec, -, hport⟩ := exec_egressDeparture_of_quiet (p := p)
      (quiet_credited i.toNat hquiet hopen) (by simpa using PortState.choice_credited i.toNat hchoice)
    refine ⟨_, b, exec_creditArrival_of_quiet hquiet hopen ⟨hi, hi'⟩, hexec, ?_⟩
    simp only [hport, State.port_setPort_self, headSent, PortState.credited_credits]
    omega
  case departureFirst =>
    obtain ⟨k, rest, a, hexec, hrest, hport⟩ := exec_egressDeparture_of_quiet hquiet hchoice
    refine ⟨a, _, hexec, exec_creditArrival_of_quiet hrest (by rw [hport]; exact hopen) ⟨hi, hi'⟩, ?_⟩
    simp only [hport, State.port_setPort_self, headSent, PortState.credited_credits, true_and]
    omega

end Sys2Proof.Machine
end

section
/-! The notice unit (08): what it makes of a raise, case by case of R160. -/

namespace Sys2Proof.Machine

/-! ## A raise judged (R160) -/

/-- Class OFF discards the raise (R160, case 1). -/
theorem raise_of_class_off (x : Raise) (s : State) (h : s.noticeClass x.kind = .off) : raise x s = s := by
  rcases raise_cases x s with ⟨-, hr⟩ | ⟨hc, -⟩ | ⟨hc, -⟩
  · exact hr
  · exact absurd h hc
  · exact absurd h hc

/-- With 16 records queued the raise is counted as lost (R160, case 3). -/
theorem raise_of_full (x : Raise) (s : State) (hc : s.noticeClass x.kind ≠ .off) (ht : s.notices.targetPort ≠ none)
    (hq : 16 ≤ s.notices.queue.length) : raise x s = { s with notices := s.notices.dropped 1 1 } := by
  rcases raise_cases x s with ⟨hoff | hnone, -⟩ | ⟨-, -, -, hr⟩ | ⟨-, -, hroom, -⟩
  · exact absurd hoff hc
  · exact absurd hnone ht
  · exact hr
  · exact absurd hq (by omega)

/-- With room in the queue the raise becomes the record at its tail (R160, case 4). -/
theorem raise_of_room (x : Raise) (s : State) (hc : s.noticeClass x.kind ≠ .off) (ht : s.notices.targetPort ≠ none)
    (hq : s.notices.queue.length < 16) :
    raise x s = { s with notices := { s.notices with queue := s.notices.queue ++
      [{ kind := x.kind, cls := s.noticeClass x.kind, timestamp := s.timebase.msCount, details := x.details }] } } := by
  rcases raise_cases x s with ⟨hoff | hnone, -⟩ | ⟨-, -, hfull, -⟩ | ⟨-, -, -, hr⟩
  · exact absurd hoff hc
  · exact absurd hnone ht
  · exact absurd hfull (by omega)
  · exact hr

/-- A loss counts one more in both counts, which saturate at 16 and 32 bits (R160, R167). -/
theorem NoticeUnit.dropped_one_one (u : NoticeUnit) :
    u.dropped 1 1 = { u with
      droppedSince := min (u.droppedSince + 1) 65535
      droppedTotal := min (u.droppedTotal + 1) (2 ^ 32 - 1) } := by
  rw [NoticeUnit.dropped, Nat.min_comm 65535, Nat.min_comm 4294967295]
  rfl

/-- Settles O29: the cases of R160 in their order, each by its own rule; the lost raise by the rule for the two counts. -/
theorem raiseJudged : Obligations.RaiseJudged := by
  intro x s
  refine ⟨raise_of_class_off x s, fun _ => raise_of_no_target x s, fun hc ht hq => ?full, raise_of_room x s⟩
  case full => rw [raise_of_full x s hc ht hq, NoticeUnit.dropped_one_one]

end Sys2Proof.Machine
end

section
/-! The proofs of the statements. They are elaborated one after the other: side by side they wait for each other's lemmas in so many
threads that the stacks reserved for them can exceed the limit under which the file is compiled. -/

set_option Elab.async false

section
/-! What one event can do: every step is a sequence of changes from one short list, so that a law holds after every step
once each change of the list keeps it. -/

namespace Sys2Proof.Machine

open Sys2Proof.Safety

/-! ## What a written field changes (R179 step 5) -/

/-- What the owner of a field makes of a written value: nothing, or the change of its own. -/
inductive FieldWrite : State → State → Prop where
  | refused (s : State) : FieldWrite s s
  | identity (s : State) (p : Port) (n : Node) : s.portUsed p = false → s.targetInForce p n = false →
      FieldWrite s (s.setPort p { s.port p with identity := n })
  | tStall (s : State) (p : Port) (t : TStall) : FieldWrite s (s.setPort p { s.port p with
      tStall := t, stallTimer := if (s.port p).waitsForCredit then t.ticks else none })
  | config (s : State) (t : Dir) (w : Fin 16) (x : Window) : (s.window t w).state = .disabled →
      x = { s.window t w with
        space := x.space, base := x.base, limit := x.limit, translatedBase := x.translatedBase, target := x.target,
        readAllowed := x.readAllowed, writeAllowed := x.writeAllowed, posting := x.posting, granule := x.granule,
        lockBinding := x.lockBinding } →
      FieldWrite s (s.setWindow t w x)
  | hits (s : State) (t : Dir) (w : Fin 16) : FieldWrite s (s.setWindow t w (s.window t w).clearHits)
  | enable (s : State) (t : Dir) (w : Fin 16) : s.enableStatus t w = .ok →
      FieldWrite s (s.setWindow t w { s.window t w with state := .active, fault := none })
  | close (s : State) (t : Dir) (w : Fin 16) : FieldWrite s (s.setWindow t w (s.window t w).close)
  | clearFault (s : State) (t : Dir) (w : Fin 16) : FieldWrite s (s.setWindow t w (s.window t w).clearFault)
  | reserve (s : State) (y : Dir) (v : Nat) : v ≤ 32 → v + s.reserve (otherDir y) ≤ 64 →
      s.inUse (otherDir y) + max v (s.inUse y) ≤ 64 → FieldWrite s (s.setReserve y v)
  | tcto (s : State) (x : Dir) (t : TCto) : FieldWrite s (s.setTcto x t)
  | tLease (s : State) (k : Fin 8) (t : BitVec 16) : FieldWrite s (s.setLock k { s.lock k with tLease := t })
  | tWait (s : State) (k : Fin 8) (t : BitVec 16) : FieldWrite s (s.setLock k { s.lock k with tWait := t })
  | broken (s : State) (k : Fin 8) : FieldWrite s (breakHold k s)
  | classes (s : State) (n : NoticeKind) (c : NoticeClass) :
      FieldWrite s { s with notices := { s.notices with classes := s.notices.classes.set (noticeIndex n) c } }
  | targetPort (s : State) (q : Option Port) : FieldWrite s { s with notices := s.notices.retarget q }
  | targetNode (s : State) (n : Node) : FieldWrite s { s with notices := { s.notices with targetNode := n } }
  | manager (s : State) (i : Fin 4) (m : ManagerEntry) : FieldWrite s { s with managers := s.managers.set i m }
  | divider (s : State) (v : Nat) : 25 ≤ v → v ≤ 200 →
      FieldWrite s { s with timebase := { s.timebase with divider := v, refclk := 0 } }
  | reset (s : State) : FieldWrite s (softReset s)

/-- A window with its attributes written keeps its state, counts and fault record (R24). -/
theorem Window.withAttributes_eq {w x : Window} {v : Nat} (h : w.withAttributes v = some x) :
    x = { w with
      space := x.space, readAllowed := x.readAllowed, writeAllowed := x.writeAllowed, posting := x.posting,
      granule := x.granule, lockBinding := x.lockBinding } := by
  unfold Window.withAttributes at h
  split at h
  · cases h; rfl
  · cases h

/-- A configuration write is refused, or stores a window that keeps its state, counts and record (R24). -/
theorem storeWindow_fieldWrite {s : State} {t : Dir} {w : Fin 16} {o : Option Window}
    (h : ∀ x, o = some x → x = { s.window t w with
      space := x.space, base := x.base, limit := x.limit, translatedBase := x.translatedBase, target := x.target,
      readAllowed := x.readAllowed, writeAllowed := x.writeAllowed, posting := x.posting, granule := x.granule,
      lockBinding := x.lockBinding }) : FieldWrite s (storeWindow t w o s).2 := by
  unfold storeWindow
  split
  · exact .refused s
  · next x =>
    split
    · next hd => exact .config s t w x hd (h x rfl)
    · exact .refused s

theorem windowCommand_fieldWrite (s : State) (t : Dir) (w : Fin 16) (v : Nat) :
    FieldWrite s (windowCommand t w v s).2 := by
  unfold windowCommand
  split
  · unfold enableWindow
    split
    · next hok => exact .enable s t w hok
    · exact .refused s
  · exact .close s t w
  · exact .clearFault s t w
  · exact .refused s

/-- The owners' judgement of a written value makes one of the changes of the list. -/
theorem writeField_fieldWrite (f : Field) (v : Nat) (s : State) : FieldWrite s (writeField f v s).2 := by
  cases f with
  | identity p =>
    simp only [writeField, writeIdentity]
    split
    · exact .refused s
    · split
      · exact .refused s
      · split
        · exact .refused s
        · exact .identity s p _ (by simpa using ‹¬ s.portUsed p = true›) (by simpa using ‹¬ s.targetInForce p _ = true›)
  | tStall p =>
    simp only [writeField, writeTStall]
    split
    · exact .refused s
    · exact .tStall s p _
  | attributes t w =>
    refine storeWindow_fieldWrite fun x hx => ?_
    rw [Window.withAttributes_eq hx]
  | base t w | limit t w | translatedBase t w | target t w =>
    refine storeWindow_fieldWrite fun x hx => ?_
    obtain ⟨a, -, rfl⟩ := Option.map_eq_some_iff.1 hx
    rfl
  | hitCount t w => exact .hits s t w
  | command t w => exact windowCommand_fieldWrite s t w v
  | reserve y =>
    simp only [writeField, writeReserve]
    split
    · exact .refused s
    · exact .reserve s y v (by omega) (by omega) (by omega)
  | tcto x =>
    simp only [writeField, writeTcto]
    split
    · exact .refused s
    · exact .tcto s x _
  | tLease k =>
    simp only [writeField, writeTLease]
    split
    · exact .refused s
    · exact .tLease s k _
  | tWait k =>
    simp only [writeField, writeTWait]
    split
    · exact .refused s
    · exact .tWait s k _
  | breakField k =>
    simp only [writeField, writeBreak]
    split
    · exact .broken s k
    · exact .refused s
  | noticePort =>
    simp only [writeField, writeTargetPort]
    split
    · exact .refused s
    · exact .targetPort s _
  | noticeNode =>
    simp only [writeField, writeTargetNode]
    split
    · exact .refused s
    · exact .targetNode s _
  | noticeClass n =>
    simp only [writeField, writeClass]
    split
    · exact .refused s
    · exact .classes s n _
  | manager i =>
    simp only [writeField, writeManager]
    split
    · exact .refused s
    · exact .manager s i _
  | divider =>
    simp only [writeField, writeDivider]
    split
    · next h => exact .divider s v h.1 h.2
    · exact .refused s
  | reset =>
    simp only [writeField, writeReset]
    split
    · exact .reset s
    · exact .refused s
  | _ => exact .refused s

/-- What the management agent does to the state is a field's write, or nothing (R179). -/
theorem manage_fieldWrite (p : Port) (r : Request) (s : State) : FieldWrite s (manage p r s).state := by
  unfold manage
  split
  · exact .refused s
  · split
    · exact .refused s
    · split
      · exact .refused s
      · split
        · exact .refused s
        · split
          · exact writeField_fieldWrite _ _ s
          · exact .refused s

/-! ## The parts a change can touch -/

/-- `t` differs from `s` in the window tables, the entries and the done order at most. -/
def TableChange (s t : State) : Prop :=
  t = { s with down := t.down, up := t.up, entries := t.entries, doneOrder := t.doneOrder }

namespace TableChange

theorem refl (s : State) : TableChange s s := rfl

theorem trans {s t u : State} (h : TableChange s t) (k : TableChange t u) : TableChange s u := by
  rw [TableChange] at *
  rw [h] at k
  exact k

theorem setEntry (s : State) (e : Fin 64) (x : Option Entry) : TableChange s (s.setEntry e x) := rfl

theorem setWindow (s : State) (t : Dir) (w : Fin 16) (x : Window) : TableChange s (s.setWindow t w x) := by
  cases t <;> rfl

theorem setDoneOrder (s : State) (l : List (Fin 64)) : TableChange s { s with doneOrder := l } := rfl

/-- A sequence of changes of the table is one. -/
theorem foldl {α : Type} (l : List α) (f : State → α → State) (h : ∀ s a, TableChange s (f s a)) (s : State) :
    TableChange s (l.foldl f s) := by
  induction l generalizing s with
  | nil => exact refl s
  | cons a l ih => exact (h s a).trans (ih (f s a))

variable {s t : State} (h : TableChange s t)
include h

theorem port (p : Port) : t.port p = s.port p := by rw [h]; cases p <;> rfl
theorem lock (k : Fin 8) : t.lock k = s.lock k := by rw [h]; rfl
theorem locks : t.locks = s.locks := by rw [h]
theorem notices : t.notices = s.notices := by rw [h]
theorem timebase : t.timebase = s.timebase := by rw [h]
theorem managers : t.managers = s.managers := by rw [h]
theorem resetN : t.resetN = s.resetN := by rw [h]
theorem pending : t.pending = s.pending := by rw [h]
theorem freeNext : t.freeNext = s.freeNext := by rw [h]
theorem reserve (x : Dir) : t.reserve x = s.reserve x := by rw [h]; cases x <;> rfl
theorem tcto (x : Dir) : t.tcto x = s.tcto x := by rw [h]; cases x <;> rfl

end TableChange

theorem deliver_tableChange (e : Fin 64) (x : Entry) (s : State) : TableChange s (deliver e x s) :=
  ((TableChange.setWindow s _ _ _).trans (TableChange.setEntry _ e _)).trans (TableChange.setDoneOrder _ _)

theorem takeResult_tableChange (e : Fin 64) (s : State) : TableChange s (takeResult e s).1 := by
  unfold takeResult
  dsimp only
  split
  · exact .refl s
  · split
    · split
      · split
        · exact deliver_tableChange _ _ _
        · exact (TableChange.setWindow s _ _ _).trans (deliver_tableChange _ _ _)
      · split
        · exact deliver_tableChange _ _ _
        · exact (TableChange.setEntry s _ _).trans (TableChange.setDoneOrder _ _)
    · exact .refl s

/-- Taking results one after the other is taking each in turn. -/
theorem takeResults_fst (es : List (Fin 64)) (s : State) :
    (takeResults es s).1 = es.foldl (fun s e => (takeResult e s).1) s := by
  have h : ∀ (es : List (Fin 64)) (a : State × List Raise),
      (es.foldl (fun a e => let b := takeResult e a.1; (b.1, a.2 ++ b.2)) a).1 =
        es.foldl (fun s e => (takeResult e s).1) a.1 := by
    intro es
    induction es with
    | nil => exact fun _ => rfl
    | cons e es ih => exact fun a => ih _
  exact h es (s, [])

theorem takeResults_tableChange (es : List (Fin 64)) (s : State) : TableChange s (takeResults es s).1 := by
  rw [takeResults_fst]
  exact .foldl es _ (fun s e => takeResult_tableChange e s) s

theorem mapEntries_tableChange (es : List (Fin 64)) (f : Entry → Entry) (s : State) :
    TableChange s (mapEntries es f s) :=
  .foldl es _ (fun s e => .setEntry s e _) s

theorem stallEntries_tableChange (ks : List EgressPacket) (s : State) : TableChange s (stallEntries ks s).1 :=
  (mapEntries_tableChange _ _ s).trans (takeResults_tableChange _ _)

theorem forwardLinkLoss_tableChange (n : Nat) (p : Port) (s : State) : TableChange s (forwardLinkLoss n p s).1 :=
  (((mapEntries_tableChange _ _ s).trans (mapEntries_tableChange _ _ _)).trans
    (.foldl _ _ (fun s e => .setEntry s e none) _)).trans (takeResults_tableChange _ _)

theorem originLinkLoss_tableChange (p : Port) (s : State) : TableChange s (originLinkLoss p s) := by
  refine (mapEntries_tableChange _ _ s).trans (.foldl _ _ (fun s e => ?_) _)
  split
  · exact deliver_tableChange _ _ _
  · exact .refl s

/-! ## The changes -/

/-- What a link loss of port `p` makes of the state before the event settles (R11, R95, R96, R132, R153, R154). -/
def linkLossState (p : Port) (s : State) : State :=
  (locksLinkLoss p (originLinkLoss p (forwardLinkLoss s.freeNext p
    (countFlushed (noticesOf (s.port p).egress) (s.setPort p (s.port p).linkLost))).1)).drawn 3

/-- What the departure of the egress head `k` makes of the state before the event settles (R122, R79). -/
def departureState (p : Port) (k : EgressPacket) (rest : List EgressPacket) (s : State) : State :=
  match k with
  | .segment e n _ => segmentSent e n (s.setPort p ((s.port p).sendHead k rest))
  | _ => s.setPort p ((s.port p).sendHead k rest)

/-- One change of a state, in an event of command `c` (none for a REFCLK period). Every field of the state changes by
these alone. -/
inductive Change (c : Option Instr) : State → State → Prop where
  | queued (s : State) (l : List Instr) : Change c s { s with pending := l }
  | powerUp (s : State) : c = some .powerUpReset →
      Change c s { State.reset with freeNext := s.freeNext, pending := s.pending }
  | deasserted (s : State) (straps : Node) : s.resetN = false → Change c s { s with
      resetN := true
      portU := { s.portU with identity := straps }
      portD := { s.portD with identity := straps }
      timebase := { s.timebase with refclk := 0, msProgress := 0, msCount := 0 } }
  | opened (s : State) (p : Port) : c = some (.linkEstablishment p) → (s.port p).link = .down →
      Change c s (s.setPort p { s.port p with link := .up, creditsOwed := 16, lastChoice := .completion })
  | closed (s : State) (p : Port) : c = some (.linkLoss p) → (s.port p).link ≠ .down → Change c s (linkLossState p s)
  | stored (s : State) (p : Port) (r : Request) : (s.port p).link ≠ .down → (s.port p).ingress.length < 16 →
      Change c s (s.setPort p { s.port p with ingress := (s.port p).ingress ++ [r] })
  | discarded (s : State) (p : Port) : Change c s (countDiscard p s)
  | stray (s : State) (p : Port) : Change c s (countStray p s)
  | matched (s : State) (p : Port) (a : CplPacket) (x : Entry) (g : Segment) : s.entry (tagEntry a.tag) = some x →
      x.segments[tagSegment a.tag]? = some g → matchesSegment p a x g = true →
      Change c s (takeResult (tagEntry a.tag)
        (s.setEntry (tagEntry a.tag) (some (resolveSegment x (tagSegment a.tag) g a)))).1
  | credited (s : State) (p : Port) (i : Byte) :
      (c = some (.creditArrival p i) ∨ ∃ b, c = some (.undefinedPacketArrival p b) ∧ readPacket b = .credit i) →
      (s.port p).link ≠ .down → 1 ≤ i.toNat → i.toNat ≤ 16 →
      Change c s (s.setPort p ((s.port p).credited i.toNat))
  | creditSent (s : State) (p : Port) (l : List Byte) :
      Change c s (s.setPort p { s.port p with creditsOwed := 0, lane := l })
  | completionSent (s : State) (p : Port) (a : Completion) (rest : List Completion) (q : TxQueue) (l : List Byte) :
      (s.port p).completions = a :: rest →
      Change c s (s.setPort p { s.port p with completions := rest, lastChoice := q, lane := l })
  | headSent (s : State) (p : Port) (k : EgressPacket) (rest : List EgressPacket) : (s.port p).choice = .egress →
      (s.port p).egress = k :: rest → Change c s (departureState p k rest s)
  | headWaits (s : State) (p : Port) : (s.port p).ingress ≠ [] → Change c s (headWaiting p s)
  | taken (s : State) (p : Port) (counted : Bool) : (s.port p).ingress ≠ [] → Change c s (take p counted s)
  | answered (s : State) (p : Port) (a : Completion) : slotFree p s = true → Change c s (place p a s)
  | acquired (s : State) (k : Fin 8) (node : Node) (p : Port) (tag : Tag) : slotForHead p s = true →
      Change c s (acquire k node p tag s)
  | released (s : State) (k : Fin 8) (node : Node) (p : Port) (tag : Tag) (g : Word32) : slotForHead p s = true →
      Change c s (release k node p tag g s)
  | wrote (s t : State) : FieldWrite s t → Change c s t
  | forwarded (s : State) (p : Port) (r : Request) (w : Fin 16) : (s.port (forwardPort (dirOf p))).link = .up →
      (s.window (dirOf p) w).state = .active → 1 ≤ r.length.toNat → r.length.toNat ≤ 256 →
      atHand p r (.forward w) s = true → Change c s (forward p r w s)
  | placed (s : State) (p : Port) (a : Claim) : nextClaim p s = some a → Change c s (placeClaim p a s)
  | raised (s : State) (x : Raise) : Change c s (raise x s)
  | drew (s : State) (n : Nat) : Change c s (s.drawn n)
  | noticePlaced (s : State) (p : Port) (r : NoticeRecord) (rest : List NoticeRecord) :
      s.notices.targetPort = some p → nextRecord s.notices.queue = some (r, rest) → (s.port p).link = .up →
      (s.port p).egress.length < 16 →
      Change c s (enqueue p [.notice (stamp s.notices r)]
        { s with notices := { s.notices with
            queue := rest, nextSequence := s.notices.nextSequence + 1, droppedSince := 0 } })
  | timedOut (s : State) (e : Fin 64) : Change c s (expireDeadline e s).1
  | quarantineEnded (s : State) (e : Fin 64) : Change c s (expireQuarantine e s)
  | stalled (s : State) (p : Port) : c = none ∨ c = some (.stallTimerExpiry p) → Change c s (expireStall p s).1
  | leaseEnded (s : State) (k : Fin 8) : Change c s (expireLease k s).1
  | waitEnded (s : State) (k : Fin 8) (node : Node) (p : Port) : Change c s (expireWait k node p s)
  | millisecond (s : State) : Change c s { s with timebase := { s.timebase with msCount := s.timebase.msCount + 1 } }
  | refclkCounted (s : State) : s.timebase.refclk + 1 < s.timebase.divider →
      Change c s { s with timebase := { s.timebase with refclk := s.timebase.refclk + 1 } }
  | tickBegun (s : State) : Change c s { s with timebase := ({ s.timebase with refclk := 0 } : Timebase).tick.1 }
  | countedDown (s : State) : Change c s s.countDown

/-- Changes one after the other. -/
abbrev Changes (c : Option Instr) : State → State → Prop := Relation.ReflTransGen (Change c)

variable {c : Option Instr}

theorem Change.changes {s t : State} (h : Change c s t) : Changes c s t := Relation.ReflTransGen.single h

/-! ## The take of a head (R50) -/

theorem take_link (p q : Port) (b : Bool) (s : State) : ((take p b s).port q).link = (s.port q).link := by
  by_cases h : q = p
  · subst h; simp [take]
  · simp [take, h]

theorem take_completions (p q : Port) (b : Bool) (s : State) :
    ((take p b s).port q).completions = (s.port q).completions := by
  by_cases h : q = p
  · subst h; simp [take]
  · simp [take, h]

theorem take_egress (p q : Port) (b : Bool) (s : State) : ((take p b s).port q).egress = (s.port q).egress := by
  by_cases h : q = p
  · subst h; simp [take]
  · simp [take, h]

@[simp] theorem take_window (p : Port) (b : Bool) (s : State) (t : Dir) (w : Fin 16) :
    (take p b s).window t w = s.window t w := by simp [take]

@[simp] theorem take_entry (p : Port) (b : Bool) (s : State) (e : Fin 64) : (take p b s).entry e = s.entry e := by
  simp [take]

@[simp] theorem take_lock (p : Port) (b : Bool) (s : State) (k : Fin 8) : (take p b s).lock k = s.lock k := by
  simp [take]

/-- The take changes nothing that a slot or a claim depends on. -/
theorem slotForHead_take (p q : Port) (b : Bool) (s : State) : slotForHead p (take q b s) = slotForHead p s := by
  simp only [slotForHead, slotFree, take_link, take_completions]
  rw [take, topClaim_setPort]

theorem slotFree_of_slotForHead {p : Port} {s : State} (h : slotForHead p s = true) : slotFree p s = true := by
  simp only [slotForHead, Bool.and_eq_true] at h
  exact h.1

/-- The take changes nothing that the resources of a forward depend on (R60). -/
theorem atHand_forward_take (p : Port) (r : Request) (w : Fin 16) (b : Bool) (s : State) :
    atHand p r (.forward w) (take p b s) = atHand p r (.forward w) s := by
  have hf : (take p b s).firstFree = s.firstFree := by simp [State.firstFree]
  have hr : (take p b s).withinReservation (dirOf p) = s.withinReservation (dirOf p) := by
    simp [State.withinReservation, take]
  simp only [atHand, take_egress, take_window, hf, hr]

/-- A written field takes no completion slot: at most it empties the queues (R18). -/
theorem FieldWrite.slotFree {s t : State} (h : FieldWrite s t) {p : Port} (hf : slotFree p s = true) :
    slotFree p t = true := by
  have hset : ∀ (q : Port) (x : PortState), x.link = (s.port q).link → x.completions = (s.port q).completions →
      Machine.slotFree p (s.setPort q x) = true := by
    intro q x hl hc
    by_cases hq : p = q
    · subst hq; simpa [Machine.slotFree, hl, hc] using hf
    · simpa [Machine.slotFree, hq] using hf
  cases h with
  | identity q n => exact hset q _ rfl rfl
  | tStall q t => exact hset q _ rfl rfl
  | broken k =>
    simp only [breakHold]
    split
    · exact hf
    · simpa [Machine.slotFree] using hf
  | reset =>
    simp only [Machine.slotFree, Bool.and_eq_true, decide_eq_true_eq] at hf ⊢
    cases p <;> exact ⟨hf.1, by simp [softReset, State.port, PortState.softReset]⟩
  | classes | targetPort | targetNode | manager | divider | refused => cases p <;> exact hf
  | _ => simpa [Machine.slotFree] using hf

/-! ## Heads judged -/

/-- A request that is forwarded is well formed, its window is ACTIVE and its forward port is UP (R51, R55, R57). -/
theorem disposal_forward {p : Port} {r : Request} {s : State} {w : Fin 16} (h : disposal p r s = .forward w) :
    (s.port (forwardPort (dirOf p))).link = .up ∧ (s.window (dirOf p) w).state = .active ∧
      1 ≤ r.length.toNat ∧ r.length.toNat ≤ 256 := by
  have hlen : malformed (s.port p).identity r = false → 1 ≤ r.length.toNat ∧ r.length.toNat ≤ 256 := by
    intro hm
    simp only [malformed, Bool.or_eq_false_iff, decide_eq_false_iff_not] at hm
    obtain ⟨⟨⟨⟨h0, h256⟩, -⟩, -⟩, -⟩ := hm
    omega
  unfold disposal at h
  split at h
  · cases h
  · next hm =>
    have hl := hlen (by simpa using hm)
    split at h
    · cases h
    · split at h
      · split at h <;> cases h
      · split at h
        · cases h
        · next w' hw =>
          split at h
          · cases h
          · next hr =>
            cases h
            have hhit := List.find?_some hw
            simp only [Window.hits?, Window.inForce, Bool.and_eq_true, decide_eq_true_eq] at hhit
            obtain ⟨⟨⟨hforce, -⟩, -⟩, -⟩ := hhit
            unfold windowRefusal at hr
            split_ifs at hr with h1 h2 h3 h4 h5 h6
            cases hlink : (s.port (forwardPort (dirOf p))).link <;> rw [hlink] at hr
            · cases hr
            · refine ⟨rfl, ?_, hl⟩
              cases hs : (s.window (dirOf p) w).state
              · exact absurd hs hforce
              · rfl
              · exact absurd hs h3
              · exact absurd hs h2
            · cases hr

/-- A hand-off whose slot is given makes changes of the list (R54). -/
theorem handOff_changes (p : Port) (r : Request) (s : State) (h : slotForHead p s = true) :
    Changes c s (handOff p r s).1 := by
  have hslot := slotFree_of_slotForHead h
  unfold handOff
  split
  · next o _ =>
    unfold lockRequest
    split
    · split
      · exact (Change.acquired s _ _ p _ h).changes
      · exact (Change.answered s p _ hslot).changes
    · exact (Change.answered s p _ hslot).changes
    · exact (Change.answered s p _ hslot).changes
    · split
      · exact (Change.released s _ _ p _ _ h).changes
      · exact (Change.answered s p _ hslot).changes
  · have hw := manage_fieldWrite p r s
    exact (Change.wrote s _ hw).changes.tail (.answered _ p _ (hw.slotFree hslot))

/-- A disposal carried out with its resources at hand makes changes of the list (R50). -/
theorem carryOut_changes (p : Port) (r : Request) (s : State) (hi : (s.port p).ingress ≠ [])
    (h : atHand p r (disposal p r s) s = true) : Changes c s (carryOut p r (disposal p r s) s).1 := by
  cases hd : disposal p r s with
  | refuse st w =>
    refine (Change.taken s p false hi).changes.trans ?_
    rw [hd] at h
    cases hk : r.kind with
    | pw => simp only [carryOut, refuse, hk]; exact .refl
    | rd | cw =>
      simp only [atHand, hk, reduceCtorEq, decide_false, Bool.false_or] at h
      simp only [carryOut, refuse, hk]
      exact (Change.answered _ p _ (slotFree_of_slotForHead (by rwa [slotForHead_take]))).changes
  | handOff =>
    rw [hd] at h
    exact (Change.taken s p true hi).changes.trans (handOff_changes p r _ (by rwa [slotForHead_take]))
  | forward w =>
    obtain ⟨hup, hactive, hlen⟩ := disposal_forward hd
    rw [hd] at h
    exact (Change.taken s p true hi).changes.tail
      (.forwarded _ p r w (by rwa [take_link]) (by rwa [take_window]) hlen.1 hlen.2 (by rwa [atHand_forward_take]))

/-- The end of an event makes changes of the list. -/
theorem settleWith_changes (es : List Raise) (s : State) : Changes c s (settleWith es s) :=
  settleWith_induction (P := Changes c s) (fun p a t ha ht => ht.tail (.placed t p a ha))
    (fun p r _ t _ hi ha ht => ht.trans (carryOut_changes p r t (by simp [hi]) ha)) (fun x t ht => ht.tail (.raised t x))
    (fun k t ht => ht.tail (.drew t k)) es s .refl

/-- A change, and then the end of the event. -/
theorem Change.settles {s t : State} (h : Change c s t) (es : List Raise) : Changes c s (settleWith es t) :=
  h.changes.trans (settleWith_changes es t)

theorem judgeHead_changes (p : Port) (s : State) : Changes c s (judgeHead p s) := by
  cases hi : (s.port p).ingress with
  | nil => rw [judgeHead_of_empty p s hi]
  | cons r rest =>
    cases ha : atHand p r (disposal p r s) s with
    | true =>
      rw [judgeHead_of_take p s r rest hi ha]
      exact (carryOut_changes p r s (by simp [hi]) ha).trans (settleWith_changes _ _)
    | false =>
      rw [judgeHead_of_wait p s r rest hi ha]
      exact (Change.headWaits s p (by simp [hi])).settles []

theorem storeRequest_changes (p : Port) (r : Request) (s : State) (h : (s.port p).link ≠ .down) :
    Changes c s (storeRequest p r s) := by
  unfold storeRequest
  split
  · next hr => exact (Change.stored s p r h hr).changes
  · exact (Change.discarded s p).changes.tail (.raised _ _)

theorem presentRequest_changes (p : Port) (r : Request) (s : State) : Changes c s (presentRequest p r s) := by
  unfold presentRequest
  split
  · exact .refl
  · next h =>
    split
    · exact (storeRequest_changes p r s h).trans (judgeHead_changes p _)
    · split
      · exact judgeHead_changes p s
      · exact storeRequest_changes p r s h

/-! ## Arrivals -/

theorem arriveRequest_changes (p : Port) (r : Request) (s : State) : Changes c s (arriveRequest p r s) := by
  unfold arriveRequest
  split
  · exact .refl
  · next h => exact storeRequest_changes p r s h

theorem tableCompletion_changes (p : Port) (a : CplPacket) (s : State) : Changes c s (tableCompletion p a s).1 := by
  unfold tableCompletion
  dsimp only
  split
  · exact (Change.stray s p).changes
  · next x hx =>
    split
    · exact (Change.stray s p).changes
    · next g hg =>
      split
      · next hm => exact (Change.matched s p a x g hx hg hm).changes
      · split
        · exact (Change.stray s p).changes
        · exact (Change.stray s p).changes

theorem arriveCompletion_changes (p : Port) (a : CplPacket) (s : State) : Changes c s (arriveCompletion p a s) := by
  unfold arriveCompletion
  split
  · exact .refl
  · split
    · exact (tableCompletion_changes p a s).trans (settleWith_changes _ _)
    · exact (Change.stray s p).changes.tail (.raised _ _)

theorem arriveDiscarded_changes (p : Port) (s : State) : Changes c s (arriveDiscarded p s) := by
  unfold arriveDiscarded
  split
  · exact .refl
  · exact (Change.discarded s p).changes

theorem arriveCredit_changes (p : Port) (i : Byte) (s : State)
    (h : c = some (.creditArrival p i) ∨ ∃ b, c = some (.undefinedPacketArrival p b) ∧ readPacket b = .credit i) :
    Changes c s (arriveCredit p i s) := by
  unfold arriveCredit
  split
  · exact .refl
  · next hl =>
    split
    · next hi => exact (Change.credited s p i h hl hi.1 hi.2).settles []
    · exact (Change.discarded s p).changes

/-! ## The tick -/

/-- One due event makes changes of the list. -/
theorem runDue_changes (d : Due) (s : State) : Changes none s (runDue d s) := by
  unfold runDue
  split
  · cases d with
    | deadline e => exact (Change.timedOut s e).settles _
    | quarantine e => exact (Change.quarantineEnded s e).settles _
    | stall p => exact (Change.stalled s p (.inl rfl)).settles _
    | lease k => exact (Change.leaseEnded s k).settles _
    | wait k node p => exact (Change.waitEnded s k node p).settles _
    | millisecond => exact (Change.millisecond s).changes
  · exact .refl

theorem foldl_runDue_changes (ds : List Due) (s : State) : Changes none s (ds.foldl (fun s d => runDue d s) s) := by
  induction ds generalizing s with
  | nil => exact .refl
  | cons d ds ih => exact (runDue_changes d s).trans (ih _)

/-- A tick makes changes of the list, once the timebase has counted it. -/
theorem tick_changes (s : State) : Changes none { s with timebase := s.timebase.tick.1 } (tick s) := by
  unfold tick
  dsimp only
  generalize hs : ({ s with timebase := s.timebase.tick.1 } : State) = s1
  have hdraw : ∀ n : Nat, Changes none s1 (if 1 < n then s1.drawn 1 else s1) := by
    intro n
    split
    · exact (Change.drew s1 1).changes
    · exact .refl
  exact ((hdraw _).trans (foldl_runDue_changes _ _)).tail (.countedDown _)

theorem refclkPeriod_changes (s : State) : Changes none s (refclkPeriod s) := by
  unfold refclkPeriod
  split
  · split
    · exact (Change.tickBegun s).changes.trans
        (tick_changes { s with timebase := { s.timebase with refclk := 0 } })
    · next h => exact (Change.refclkCounted s (by omega)).changes
  · exact .refl

/-! ## Every step -/

/-- A command's meaning is a sequence of changes of the list. -/
theorem exec_changes (i : Instr) {s t : State} (h : exec i s = .next t) : Changes (some i) s t := by
  have hrow : ∀ u, exec i s = .next u → Changes (some i) s u → Changes (some i) s t := by
    intro u hu hc
    rw [hu] at h
    cases h
    exact hc
  by_cases hreq : ∃ p r, requestOf i s = some (p, r)
  · obtain ⟨p, r, hr⟩ := hreq
    exact hrow _ (exec_requestOf i p r s hr) (presentRequest_changes p r s)
  cases i with
  | powerUpReset => exact hrow _ rfl (Change.powerUp s rfl).changes
  | resetNDeassertion straps =>
    by_cases hn : s.resetN = true
    · exact hrow s (by simp [exec, execResetNDeassertion, hn]) .refl
    · exact hrow _ (by rw [exec, execResetNDeassertion, if_neg hn])
        (Change.deasserted s straps (by simpa using hn)).changes
  | linkEstablishment p =>
    by_cases hn : s.resetN = true ∧ (s.port p).link = .down
    · exact hrow _ (by rw [exec, execLinkEstablishment, if_pos hn]) ((Change.opened s p rfl hn.2).settles _)
    · exact hrow s (by rw [exec, execLinkEstablishment, if_neg hn]) .refl
  | linkLoss p =>
    by_cases hn : (s.port p).link = .down
    · exact hrow s (by rw [exec, execLinkLoss, if_pos hn]) .refl
    · exact hrow _ (by simp only [exec, execLinkLoss, if_neg hn]; rfl) ((Change.closed s p rfl hn).settles _)
  | requestArrival p r => exact hrow _ rfl (arriveRequest_changes p r s)
  | completionArrival p a => exact hrow _ rfl (arriveCompletion_changes p a s)
  | noticeArrival p n => exact hrow _ rfl (arriveDiscarded_changes p s)
  | creditArrival p j => exact hrow _ rfl (arriveCredit_changes p j s (.inl rfl))
  | undefinedPacketArrival p b =>
    cases hb : readPacket b with
    | request r => exact hrow _ (by simp only [exec, execUndefinedPacketArrival, hb]) (arriveRequest_changes p r s)
    | completion a => exact hrow _ (by simp only [exec, execUndefinedPacketArrival, hb]) (arriveCompletion_changes p a s)
    | notice n => exact hrow _ (by simp only [exec, execUndefinedPacketArrival, hb]) (arriveDiscarded_changes p s)
    | credit j =>
      exact hrow _ (by simp only [exec, execUndefinedPacketArrival, hb])
        (arriveCredit_changes p j s (.inr ⟨b, rfl, hb⟩))
    | undefinedKind => exact hrow _ (by simp only [exec, execUndefinedPacketArrival, hb]) (arriveDiscarded_changes p s)
  | crdDeparture p =>
    by_cases hc : (s.port p).choice = .credit
    · exact hrow _ (by rw [exec, execCrdDeparture, if_pos hc]) (Change.creditSent s p _).changes
    · exact hrow s (by rw [exec, execCrdDeparture, if_neg hc]) .refl
  | completionDeparture p =>
    by_cases hc : (s.port p).choice = .completion
    · cases hq : (s.port p).completions with
      | nil => exact hrow s (by simp [exec, execCompletionDeparture, hc, hq]) .refl
      | cons a rest =>
        exact hrow _ (by simp only [exec, execCompletionDeparture, hc, hq, if_true]; rfl)
          ((Change.completionSent s p a rest _ _ hq).settles [])
    · exact hrow s (by simp [exec, execCompletionDeparture, hc]) .refl
  | egressDeparture p =>
    by_cases hc : (s.port p).choice = .egress
    · cases hq : (s.port p).egress with
      | nil => exact hrow s (by simp [exec, execEgressDeparture, hc, hq]) .refl
      | cons k rest =>
        have hk := (Change.headSent (c := some (.egressDeparture p)) s p k rest hc hq).settles []
        cases k <;> exact hrow _ (by simp only [exec, execEgressDeparture, hc, hq, if_true]; rfl) hk
    · exact hrow s (by simp [exec, execEgressDeparture, hc]) .refl
  | admissionJudgement p => exact hrow _ rfl (judgeHead_changes p s)
  | noticePlacement =>
    cases ht : s.notices.targetPort with
    | none => exact hrow s (by simp [exec, execNoticePlacement, ht]) .refl
    | some p =>
      cases hq : nextRecord s.notices.queue with
      | none => exact hrow s (by simp [exec, execNoticePlacement, ht, hq]) .refl
      | some a =>
        obtain ⟨r, rest⟩ := a
        by_cases hroom : (s.port p).link = .up ∧ (s.port p).egress.length < 16
        · exact hrow _ (by simp only [exec, execNoticePlacement, ht, hq, if_pos hroom]; rfl)
            ((Change.noticePlaced s p r rest ht hq hroom.1 hroom.2).settles [])
        · exact hrow s (by simp only [exec, execNoticePlacement, ht, hq, if_neg hroom]) .refl
  | doneEntryDelivery e =>
    cases he : s.entry e with
    | none => exact hrow s (by simp [exec, execDoneEntryDelivery, he]) .refl
    | some x =>
      refine hrow _ (by simp only [exec, execDoneEntryDelivery, he]; rfl) ?_
      unfold giveSlot
      split
      · next hn => exact (Change.placed s _ _ hn).settles []
      · exact .refl
  | outboxGrantPlacing k =>
    cases ho : (s.lock k).outbox with
    | none => exact hrow s (by simp [exec, execOutboxGrantPlacing, ho]) .refl
    | some a =>
      refine hrow _ (by simp only [exec, execOutboxGrantPlacing, ho]; rfl) ?_
      unfold giveSlot
      split
      · next hn => exact (Change.placed s _ _ hn).settles []
      · exact .refl
  | expiryAnswerPlacing k p =>
    refine hrow _ rfl ?_
    unfold giveSlot
    split
    · next hn => exact (Change.placed s _ _ hn).settles []
    · exact .refl
  | completionDeadlineExpiry e => exact hrow _ rfl ((Change.timedOut s e).settles _)
  | quarantineExpiry e => exact hrow _ rfl ((Change.quarantineEnded s e).settles _)
  | stallTimerExpiry p => exact hrow _ rfl ((Change.stalled s p (.inr rfl)).settles _)
  | leaseExpiry k => exact hrow _ rfl ((Change.leaseEnded s k).settles _)
  | waitExpiry k node p => exact hrow _ rfl ((Change.waitEnded s k node p).settles _)
  | millisecondCountIncrement =>
    by_cases hn : s.resetN = true
    · exact hrow _ (by rw [exec, execMillisecondCountIncrement, if_pos hn]) (Change.millisecond s).changes
    · exact hrow s (by rw [exec, execMillisecondCountIncrement, if_neg hn]) .refl
  | windowFieldWrite q t w f => cases f <;> exact absurd ⟨_, _, rfl⟩ hreq
  | _ => exact absurd ⟨_, _, rfl⟩ hreq

/-- A step is a sequence of changes of the list, in an event of the command at the front of the queue. -/
theorem step_changes {s t : State} (h : step s = .next t) : Changes s.pending.head? s t := by
  unfold step at h
  split at h
  · next c rest hp =>
    rw [hp]
    exact (Change.queued s rest).changes.trans (exec_changes c h)
  · next hp =>
    cases h
    rw [hp]
    exact refclkPeriod_changes s

/-- A property that every change keeps is kept by every sequence of changes. -/
theorem Changes.keeps {P : State → Prop} (hkeep : ∀ s t, Change c s t → P s → P t) {s t : State} (h : Changes c s t)
    (hs : P s) : P t := by
  induction h with
  | refl => exact hs
  | tail _ hc ih => exact hkeep _ _ hc ih

/-- A law that every change keeps is kept by every step. -/
theorem step_keeps {P : State → Prop} (hkeep : ∀ c s t, Change c s t → P s → P t) {s t : State} (hs : P s)
    (h : step s = .next t) : P t :=
  (step_changes h).keeps (hkeep _) hs

end Sys2Proof.Machine
end

section
/-! What the larger changes do to the ports, and the ports' laws (01, 05, 06): bounds, empty DOWN and STALLED ports, the
stall timer (R11, R15, R17, R101, R119, R122, R126, R128). -/

namespace Sys2Proof.Machine

open Sys2Proof.Safety

variable {c : Option Instr}

/-! ## The ports after each larger change -/

@[simp] theorem State.port_doneOrder (s : State) (l : List (Fin 64)) (q : Port) :
    State.port { s with doneOrder := l } q = s.port q := by cases q <;> rfl
@[simp] theorem State.port_notices (s : State) (u : NoticeUnit) (q : Port) :
    State.port { s with notices := u } q = s.port q := by cases q <;> rfl
@[simp] theorem State.port_timebase (s : State) (b : Timebase) (q : Port) :
    State.port { s with timebase := b } q = s.port q := by cases q <;> rfl
@[simp] theorem State.port_managers (s : State) (m : Vector ManagerEntry 4) (q : Port) :
    State.port { s with managers := m } q = s.port q := by cases q <;> rfl

@[simp] theorem countFlushed_port (ns : List StampedNotice) (s : State) (q : Port) :
    (countFlushed ns s).port q = s.port q := by simp [countFlushed]

@[simp] theorem locksLinkLoss_port (p q : Port) (s : State) : (locksLinkLoss p s).port q = s.port q := by
  cases q <;> rfl

@[simp] theorem linkLossState_port (p q : Port) (s : State) :
    (linkLossState p s).port q = if q = p then (s.port p).linkLost else s.port q := by
  simp only [linkLossState, State.port_drawn, locksLinkLoss_port, (originLinkLoss_tableChange _ _).port,
    (forwardLinkLoss_tableChange _ _ _).port, countFlushed_port, State.port_setPort]

@[simp] theorem departureState_port (p q : Port) (k : EgressPacket) (rest : List EgressPacket) (s : State) :
    (departureState p k rest s).port q = if q = p then (s.port p).sendHead k rest else s.port q := by
  cases k <;> simp [departureState, State.port_setPort]

/-- Each claim's placing adds at most one completion, at the port whose slot is its due (R104). -/
theorem placeClaim_port_cases {p : Port} {a : Claim} {s : State} (h : nextClaim p s = some a) :
    (∀ q, (placeClaim p a s).port q = s.port q) ∨
    ∃ r, ∀ q, (placeClaim p a s).port q =
      if q = p then { s.port p with completions := (s.port p).completions ++ [r] } else s.port q := by
  have hplace : ∀ (r : Completion) (t : State), (∀ q, t.port q = s.port q) → ∀ q, (place p r t).port q =
      if q = p then { s.port p with completions := (s.port p).completions ++ [r] } else s.port q := by
    intro r t ht q
    simp [place, State.port_setPort, ht]
  have htop : topClaim p s = some a := by
    unfold nextClaim at h
    split at h
    · exact h
    · cases h
  unfold topClaim at htop
  cases a with
  | outbox k =>
    simp only [placeClaim, placeOutbox]
    cases ho : (s.lock k).outbox with
    | none => exact .inl fun q => rfl
    | some b =>
      have hp : b.port = p := by
        split at htop
        · next hc =>
          cases htop
          obtain ⟨j, -, hj⟩ := List.exists_of_findSome?_eq_some hc
          unfold lockClaim at hj
          split at hj
          · next hany =>
            cases hj
            simpa [ho] using hany
          · split at hj <;> cases hj
        · simp at htop
      subst hp
      exact .inr ⟨_, hplace _ _ (by simp)⟩
  | expired k =>
    simp only [placeClaim, placeExpired]
    split
    · exact .inl fun q => rfl
    · exact .inr ⟨_, hplace _ _ (by simp)⟩
  | done e =>
    simp only [placeClaim, deliverDone]
    cases he : s.entry e with
    | none => exact .inl fun q => rfl
    | some x =>
      have hp : originPort x.dir = p := by
        split at htop
        · next hc =>
          cases htop
          obtain ⟨j, -, hj⟩ := List.exists_of_findSome?_eq_some hc
          unfold lockClaim at hj
          split at hj
          · cases hj
          · split at hj <;> cases hj
        · obtain ⟨i, hi, hie⟩ := Option.map_eq_some_iff.1 htop
          cases hie
          have := List.find?_some hi
          simp only [doneClaims, he, Bool.and_eq_true, decide_eq_true_eq] at this
          exact this.2
      subst hp
      exact .inr ⟨_, fun q => by rw [deliver_port, hplace _ s (fun _ => rfl)]⟩

theorem slotFree_of_nextClaim {p : Port} {a : Claim} {s : State} (h : nextClaim p s = some a) : slotFree p s = true := by
  unfold nextClaim at h
  split at h
  · assumption
  · cases h

theorem slotFree_iff (p : Port) (s : State) :
    slotFree p s = true ↔ (s.port p).link ≠ .down ∧ (s.port p).completions.length < 16 := by
  simp [slotFree]

/-- An ACQUIRE adds at most one completion, at its own port (R140). -/
theorem acquire_port_cases (k : Fin 8) (node : Node) (p : Port) (tag : Tag) (s : State) :
    (∀ q, (acquire k node p tag s).port q = s.port q) ∨
    ∃ r, ∀ q, (acquire k node p tag s).port q =
      if q = p then { s.port p with completions := (s.port p).completions ++ [r] } else s.port q := by
  simp only [acquire]
  split
  · exact .inr ⟨answerOf node tag .ok (bytesBE 4 ((s.lock k).generation + 1).toNat), fun q => by
      simp [placeOutbox, Lock.grant, place, State.port_setPort]⟩
  · split
    · exact .inr ⟨_, fun q => by simp only [place, State.port_setPort, State.port_setLock]; rfl⟩
    · split
      · exact .inr ⟨_, fun q => by simp only [place, State.port_setPort]; rfl⟩
      · split
        · exact .inr ⟨_, fun q => by simp only [place, State.port_setPort]; rfl⟩
        · exact .inl fun q => by simp

/-- A RELEASE adds one completion, at its own port (R145). -/
theorem release_port (k : Fin 8) (node : Node) (p : Port) (tag : Tag) (g : Word32) (s : State) :
    ∃ r, ∀ q, (release k node p tag g s).port q =
      if q = p then { s.port p with completions := (s.port p).completions ++ [r] } else s.port q := by
  simp only [release]
  split
  · exact ⟨_, fun q => by simp only [place, State.port_setPort, State.port_setLock]; rfl⟩
  · exact ⟨_, fun q => by simp only [place, State.port_setPort]; rfl⟩

@[simp] theorem breakHold_port (k : Fin 8) (s : State) (q : Port) : (breakHold k s).port q = s.port q := by
  simp only [breakHold]
  split <;> simp

@[simp] theorem expireLease_port (k : Fin 8) (s : State) (q : Port) : (expireLease k s).1.port q = s.port q := by
  simp only [expireLease]
  split <;> simp

@[simp] theorem expireWait_port (k : Fin 8) (node : Node) (p : Port) (s : State) (q : Port) :
    (expireWait k node p s).port q = s.port q := by
  simp only [expireWait]
  split <;> simp

@[simp] theorem expireQuarantine_port (e : Fin 64) (s : State) (q : Port) :
    (expireQuarantine e s).port q = s.port q := by
  unfold expireQuarantine
  split
  · rfl
  · split <;> simp

/-- A deadline's expiry changes a port by the withdrawal of the entry's packets at most (R86, R121). -/
theorem expireDeadline_port (e : Fin 64) (s : State) (q : Port) :
    (expireDeadline e s).1.port q = s.port q ∨ (expireDeadline e s).1.port q = (s.port q).withdraw e := by
  unfold expireDeadline
  split
  · exact .inl rfl
  · next x _ =>
    split
    · exact .inl rfl
    · have hport : ∀ a : State, (∀ r, a.port r = ((s.setPort (forwardPort x.dir)
          ((s.port (forwardPort x.dir)).withdraw e)).port r)) →
          a.port q = s.port q ∨ a.port q = (s.port q).withdraw e := by
        intro a ha
        rw [ha, State.port_setPort]
        split
        · next hq => subst hq; exact .inr rfl
        · exact .inl rfl
      have hdrawn : ∀ (b : State) (l : List Raise), (if l = [] then b else b.drawn 1).port = b.port := by
        intro b l
        funext r
        split <;> simp
      refine hport _ fun r => ?_
      simp only [hdrawn, (takeResult_tableChange e _).port, State.port_setEntry]

/-- A stall timer's expiry changes its own port only (R127). -/
theorem expireStall_port (p : Port) (s : State) (q : Port) :
    (expireStall p s).1.port q =
      if q = p ∧ (s.port p).stallTimer ≠ none then (s.port p).stall else s.port q := by
  unfold expireStall
  cases ht : (s.port p).stallTimer with
  | none => simp
  | some n =>
    simp only [State.port_drawn, (stallEntries_tableChange _ _).port, countFlushed_port, State.port_setPort]
    simp

/-- A forward changes the egress queue of the forward port only (R63, R66). -/
theorem forward_port_cases (p : Port) (r : Request) (w : Fin 16) (s : State) :
    (∀ q, (forward p r w s).port q = s.port q) ∨
    ∃ ks, ks.length = (segmentsOf (s.window (dirOf p) w) r).length ∧ ∀ q, (forward p r w s).port q =
      if q = forwardPort (dirOf p) then (s.port q).enqueue ks else s.port q := by
  have hport : ∀ (ks : List EgressPacket) (t : State), t.port = s.port → ∀ q,
      (Machine.enqueue (forwardPort (dirOf p)) ks t).port q =
        if q = forwardPort (dirOf p) then (s.port q).enqueue ks else s.port q := by
    intro ks t ht q
    simp only [Machine.enqueue, State.port_setPort, ht]
    split
    · next h => rw [h]
    · rfl
  simp only [forward]
  split
  · exact .inr ⟨passPackets (dirOf p) w (s.window (dirOf p) w) r, by simp [passPackets],
      hport _ _ (by funext q; simp)⟩
  · split
    · exact .inl fun _ => rfl
    · next e _ =>
      exact .inr ⟨entryPackets e (s.window (dirOf p) w) r, by simp [entryPackets], hport _ _ (by funext q; simp)⟩

@[simp] theorem softReset_port (s : State) (q : Port) : (softReset s).port q = (s.port q).softReset := by
  cases q <;> rfl

@[simp] theorem countDown_port (s : State) (q : Port) : s.countDown.port q = (s.port q).tick := by
  cases q <;> rfl

@[simp] theorem State.port_reset (q : Port) : State.reset.port q = PortState.reset := by cases q <;> rfl

/-! ## The laws of one port -/

theorem TStall.isSome_ticks (t : TStall) : t.ticks.isSome = decide (t ≠ .off) := by
  cases t <;> rfl


/-- The laws of one port: bounds, links and stall timer. -/
def PortOk (x : PortState) : Prop := PortBounds x ∧ PortLinks x ∧ PortTimer x

namespace PortOk

variable {x : PortState}

theorem reset : PortOk PortState.reset := by
  refine ⟨by simp [PortBounds, PortState.reset], ⟨fun _ => by decide, by decide, by decide⟩, rfl⟩

theorem opened (h : PortOk x) (hd : x.link = .down) :
    PortOk { x with link := .up, creditsOwed := 16, lastChoice := .completion } := by
  obtain ⟨⟨h1, -, h3, h4, h5⟩, ⟨hdown, -, hw⟩, ht⟩ := h
  obtain ⟨-, -, -, he, -⟩ := hdown hd
  refine ⟨⟨h1, Nat.le_refl _, h3, h4, h5⟩, ⟨by simp, by simp, hw⟩, ?_⟩
  simp only [PortTimer, PortState.waitsForCredit, hd, he] at ht ⊢
  simpa using ht

theorem linkLost (x : PortState) : PortOk x.linkLost := by
  refine ⟨by simp [PortBounds, PortState.linkLost], ⟨?_, ?_, ?_⟩, ?_⟩ <;>
    simp [PortState.linkLost, PortTimer, PortState.waitsForCredit]

theorem softReset (h : PortOk x) : PortOk x.softReset := by
  obtain ⟨⟨-, -, -, -, h5⟩, ⟨hdown, hstall, -⟩, -⟩ := h
  refine ⟨⟨by simp [PortState.softReset], Nat.min_le_left _ _, by simp [PortState.softReset],
    by simp [PortState.softReset], h5⟩, ⟨fun hd => ?_, fun hs => ⟨rfl, (hstall hs).2⟩, by simp [PortState.softReset]⟩, ?_⟩
  · obtain ⟨hi, ho, -, -, hc⟩ := hdown hd
    exact ⟨rfl, by simp [PortState.softReset, hi, ho], rfl, rfl, hc⟩
  · simp [PortState.softReset, PortTimer, PortState.waitsForCredit]

theorem stored (h : PortOk x) (r : Request) (hl : x.link ≠ .down) (hr : x.ingress.length < 16) :
    PortOk { x with ingress := x.ingress ++ [r] } := by
  obtain ⟨⟨-, h2⟩, ⟨-, hstall, -⟩, ht⟩ := h
  exact ⟨⟨by simpa using hr, h2⟩, ⟨fun hd => absurd hd hl, hstall, by simp⟩, ht⟩

theorem credited (h : PortOk x) (n : Nat) (hn : 1 ≤ n) : PortOk (x.credited n) := by
  obtain ⟨⟨h1, h2, h3, h4, -⟩, ⟨-, -, hw⟩, -⟩ := h
  have hpos : min 32 (x.credits + n) ≠ 0 := by omega
  refine ⟨⟨h1, h2, h3, h4, Nat.min_le_left _ _⟩, ⟨by simp, by simp, hw⟩, ?_⟩
  simp [PortTimer, PortState.waitsForCredit, PortState.credited, hpos]

theorem creditSent (h : PortOk x) (l : List Byte) : PortOk { x with creditsOwed := 0, lane := l } := by
  obtain ⟨⟨h1, -, h3⟩, ⟨hdown, hs⟩, ht⟩ := h
  refine ⟨⟨h1, Nat.zero_le _, h3⟩, ⟨fun hd => ?_, hs⟩, ht⟩
  obtain ⟨hi, -, hrest⟩ := hdown hd
  exact ⟨hi, rfl, hrest⟩

theorem completionSent (h : PortOk x) {a : Completion} {rest : List Completion} (q : TxQueue) (l : List Byte)
    (hq : x.completions = a :: rest) : PortOk { x with completions := rest, lastChoice := q, lane := l } := by
  obtain ⟨⟨h1, h2, h3, h4⟩, ⟨hdown, hs⟩, ht⟩ := h
  rw [hq, List.length_cons] at h3
  refine ⟨⟨h1, h2, by dsimp only; omega, h4⟩, ⟨fun hd => ?_, hs⟩, ht⟩
  obtain ⟨-, -, hc, -⟩ := hdown hd
  rw [hq] at hc
  cases hc

theorem taken (h : PortOk x) (hi : x.ingress ≠ []) (a b : Word32) : PortOk { x with
    ingress := x.ingress.tail, headWaits := false, creditsOwed := min 16 (x.creditsOwed + 1), admitted := a,
    refused := b } := by
  obtain ⟨⟨h1, -, h3⟩, ⟨hdown, hstall, -⟩, ht⟩ := h
  have hlen : x.ingress.tail.length ≤ 16 := by rw [List.length_tail]; omega
  refine ⟨⟨hlen, Nat.min_le_left _ _, h3⟩, ⟨fun hd => ?_, hstall, by simp⟩, ht⟩
  obtain ⟨hnil, -⟩ := hdown hd
  exact absurd hnil hi

theorem answered (h : PortOk x) (a : Completion) (hl : x.link ≠ .down) (hr : x.completions.length < 16) :
    PortOk { x with completions := x.completions ++ [a] } := by
  obtain ⟨⟨h1, h2, -, h4⟩, ⟨-, hs⟩, ht⟩ := h
  exact ⟨⟨h1, h2, by simpa using hr, h4⟩, ⟨fun hd => absurd hd hl, hs⟩, ht⟩

/-- Packets put in the queue of an UP port with room for them (R119, R120, R126). -/
theorem enqueue (h : PortOk x) (ks : List EgressPacket) (hu : x.link = .up) (hr : x.egress.length + ks.length ≤ 16) :
    PortOk (x.enqueue ks) := by
  obtain ⟨⟨h1, h2, h3, -, h5⟩, ⟨-, -, hw⟩, ht⟩ := h
  refine ⟨?_, ?_, ?_⟩
  · rw [PortState.enqueue_eq]
    exact ⟨h1, h2, h3, by simpa using hr, h5⟩
  · rw [PortState.enqueue_eq]
    exact ⟨by simp [hu], by simp [hu], hw⟩
  · have hmono : x.waitsForCredit = true →
        ({ x with egress := x.egress ++ ks } : PortState).waitsForCredit = true := by
      simp only [PortState.waitsForCredit, Bool.and_eq_true, Bool.not_eq_true', List.isEmpty_eq_false_iff]
      exact fun ⟨⟨hlink, hne⟩, hcredit⟩ => ⟨⟨hlink, List.append_ne_nil_of_left_ne_nil hne ks⟩, hcredit⟩
    simp only [PortTimer, PortState.enqueue] at ht ⊢
    split
    · next hstart =>
      obtain ⟨-, hy⟩ := Bool.and_eq_true_iff.1 hstart
      calc x.tStall.ticks.isSome = (true && decide (x.tStall ≠ .off)) := by rw [TStall.isSome_ticks, Bool.true_and]
        _ = _ := by rw [← hy]; rfl
    · next hstart =>
      rw [ht]
      cases hx : x.waitsForCredit with
      | true => rw [hmono hx]
      | false =>
        rw [hx] at hstart
        simp only [Bool.not_false, Bool.true_and, Bool.not_eq_true] at hstart
        rw [hstart]

/-- Packets of an entry withdrawn (R121, R126). -/
theorem withdraw (h : PortOk x) (e : Fin 64) : PortOk (x.withdraw e) := by
  obtain ⟨⟨h1, h2, h3, h4, h5⟩, ⟨hdown, hstall, hw⟩, ht⟩ := h
  have hle : (x.withdraw e).egress.length ≤ x.egress.length := List.length_filter_le _ _
  have hnil : x.egress = [] → (x.withdraw e).egress = [] := fun hn => by simp [PortState.withdraw, hn]
  refine ⟨⟨h1, h2, h3, by omega, h5⟩, ⟨fun hd => ?_, fun hs => ⟨hnil (hstall hs).1, (hstall hs).2⟩, hw⟩, ?_⟩
  · obtain ⟨hi, ho, hc, he, hcr⟩ := hdown hd
    exact ⟨hi, ho, hc, hnil he, hcr⟩
  · have htimer : (x.withdraw e).stallTimer = if (x.withdraw e).egress.isEmpty then none else x.stallTimer := rfl
    have hwaits : (x.withdraw e).waitsForCredit =
        (decide (x.link = .up) && !(x.withdraw e).egress.isEmpty && decide (x.credits = 0)) := rfl
    have hsetting : (x.withdraw e).tStall = x.tStall := rfl
    unfold PortTimer at ht ⊢
    rw [htimer, hwaits, hsetting]
    cases hempty : (x.withdraw e).egress.isEmpty with
    | true => simp
    | false =>
      have hx : x.egress.isEmpty = false := by
        cases hq : x.egress with
        | nil => rw [hnil hq] at hempty; cases hempty
        | cons k ks => rfl
      simpa [PortState.waitsForCredit, hx] using ht

/-- A ready egress head left (R122, R126). -/
theorem sendHead (h : PortOk x) {k : EgressPacket} {rest : List EgressPacket} (hc : x.choice = .egress)
    (hq : x.egress = k :: rest) : PortOk (x.sendHead k rest) := by
  obtain ⟨howed, hready, -⟩ := (PortState.choice_eq_egress_iff x).1 hc
  rw [PortState.sendHead_of_ready k rest hready]
  obtain ⟨hup, hcredit, -⟩ := hready
  obtain ⟨⟨h1, h2, h3, h4, h5⟩, ⟨-, -, hw⟩, ht⟩ := h
  rw [hq, List.length_cons] at h4
  refine ⟨⟨h1, h2, h3, ?_, ?_⟩, ⟨by simp [headSent, hup], by simp [headSent, hup], hw⟩, ?_⟩
  · exact (Nat.le_succ _).trans h4
  · exact (Nat.sub_le _ _).trans h5
  · have hoff : x.stallTimer = none := by
      have hpos : x.credits ≠ 0 := by omega
      simpa [PortTimer, PortState.waitsForCredit, hpos] using ht
    have hzero : x.credits - 1 = 0 ↔ x.credits = 1 := by omega
    by_cases hstart : x.credits = 1 ∧ rest ≠ []
    · simp [PortTimer, PortState.waitsForCredit, headSent, hup, hstart, TStall.isSome_ticks]
    · have hno : ¬ (rest ≠ [] ∧ x.credits = 1) := fun hs => hstart hs.symm
      simp only [PortTimer, PortState.waitsForCredit, headSent, if_neg hstart, hoff, hup, hzero]
      cases hr : rest <;> simp_all

/-- A running stall timer's port holds no credit, so it can be STALLED (R126, R128). -/
theorem stall (h : PortOk x) (hrun : x.stallTimer ≠ none) : PortOk x.stall := by
  obtain ⟨⟨h1, h2, h3, -, h5⟩, ⟨-, -, hw⟩, ht⟩ := h
  have hcredit : x.credits = 0 := by
    rw [PortTimer, Option.isSome_iff_ne_none.2 hrun] at ht
    simp only [PortState.waitsForCredit, Bool.and_eq_true, decide_eq_true_eq, eq_comm (a := true)] at ht
    exact ht.1.2
  exact ⟨⟨h1, h2, h3, Nat.zero_le _, h5⟩, ⟨by simp [PortState.stall], fun _ => ⟨rfl, hcredit⟩, hw⟩,
    by simp [PortTimer, PortState.waitsForCredit, PortState.stall]⟩

theorem tick (h : PortOk x) : PortOk x.tick := by
  obtain ⟨hb, hl, ht⟩ := h
  refine ⟨hb, hl, ?_⟩
  have hsome : x.tick.stallTimer.isSome = x.stallTimer.isSome := Option.isSome_map
  unfold PortTimer at ht ⊢
  rw [hsome, ht]
  rfl

theorem tStall (h : PortOk x) (t : TStall) :
    PortOk { x with tStall := t, stallTimer := if x.waitsForCredit then t.ticks else none } := by
  obtain ⟨hb, hl, -⟩ := h
  refine ⟨hb, hl, ?_⟩
  have hwaits : ({ x with tStall := t, stallTimer := if x.waitsForCredit then t.ticks else none } :
    PortState).waitsForCredit = x.waitsForCredit := rfl
  unfold PortTimer
  rw [hwaits]
  cases x.waitsForCredit <;> simp [TStall.isSome_ticks]

end PortOk

/-! ## Every step keeps the ports' laws -/

/-- A change of one port, to a port that meets the laws, keeps them. -/
theorem portLaw_of_one {s t : State} (h : PortLaw s) (p : Port) (x : PortState) (hx : PortOk x)
    (ht : ∀ q, t.port q = if q = p then x else s.port q) : PortLaw t := by
  intro q
  rw [ht]
  split
  · exact hx
  · exact h q

theorem portLaw_of_same {s t : State} (h : PortLaw s) (ht : ∀ q, t.port q = s.port q) : PortLaw t := by
  intro q
  rw [ht]
  exact h q

theorem portLaw_setPort {s : State} (h : PortLaw s) (p : Port) {x : PortState} (hx : PortOk x) :
    PortLaw (s.setPort p x) :=
  portLaw_of_one h p x hx (State.port_setPort s p · x)

theorem FieldWrite.keeps_portLaw {s t : State} (hw : FieldWrite s t) (h : PortLaw s) : PortLaw t := by
  cases hw with
  | identity p n => exact portLaw_setPort h p (x := { s.port p with identity := n }) (h p)
  | tStall p v => exact portLaw_setPort h p (PortOk.tStall (h p) v)
  | reset => exact fun q => by rw [softReset_port]; exact PortOk.softReset (h q)
  | _ => exact portLaw_of_same h (by simp)

/-- Every change keeps the laws of the ports. -/
theorem Change.keeps_portLaw {s t : State} (hc : Change c s t) (h : PortLaw s) : PortLaw t := by
  cases hc with
  | powerUp => exact fun q => by cases q <;> exact PortOk.reset
  | deasserted straps _ => exact fun q => by cases q; exact h .u; exact h .d
  | opened p _ hd => exact portLaw_setPort h p (PortOk.opened (h p) hd)
  | closed p _ _ => exact portLaw_of_one h p _ (PortOk.linkLost _) (linkLossState_port p · s)
  | stored p r hl hr => exact portLaw_setPort h p (PortOk.stored (h p) r hl hr)
  | discarded p => exact portLaw_setPort h p (x := { s.port p with discard := (s.port p).discard + 1 }) (h p)
  | stray p => exact portLaw_setPort h p (x := { s.port p with stray := (s.port p).stray + 1 }) (h p)
  | matched p a x g _ _ _ =>
    exact portLaw_of_same h fun q => by rw [(takeResult_tableChange _ _).port, State.port_setEntry]
  | credited p i _ _ hi _ => exact portLaw_setPort h p (PortOk.credited (h p) _ hi)
  | creditSent p l => exact portLaw_setPort h p (PortOk.creditSent (h p) l)
  | completionSent p a rest q l hq =>
    exact portLaw_setPort h p (PortOk.completionSent (h p) q l hq)
  | headSent p k rest hch hq => exact portLaw_of_one h p _ (PortOk.sendHead (h p) hch hq) (departureState_port p · k rest s)
  | headWaits p hi =>
    obtain ⟨hb, ⟨hdown, hstall, -⟩, ht⟩ := h p
    exact portLaw_setPort h p (x := { s.port p with headWaits := true }) ⟨hb, ⟨hdown, hstall, fun _ => hi⟩, ht⟩
  | taken p b hi => exact portLaw_setPort h p (PortOk.taken (h p) hi _ _)
  | answered p a hf =>
    obtain ⟨hl, hr⟩ := (slotFree_iff p s).1 hf
    exact portLaw_setPort h p (PortOk.answered (h p) a hl hr)
  | acquired k node p tag hf =>
    obtain ⟨hl, hr⟩ := (slotFree_iff p s).1 (slotFree_of_slotForHead hf)
    rcases acquire_port_cases k node p tag s with hsame | ⟨r, hone⟩
    · exact portLaw_of_same h hsame
    · exact portLaw_of_one h p _ (PortOk.answered (h p) r hl hr) hone
  | released k node p tag g hf =>
    obtain ⟨hl, hr⟩ := (slotFree_iff p s).1 (slotFree_of_slotForHead hf)
    obtain ⟨r, hone⟩ := release_port k node p tag g s
    exact portLaw_of_one h p _ (PortOk.answered (h p) r hl hr) hone
  | wrote _ hw => exact hw.keeps_portLaw h
  | forwarded p r w hu _ _ _ ha =>
    rcases forward_port_cases p r w s with hsame | ⟨ks, hlen, hone⟩
    · exact portLaw_of_same h hsame
    · simp only [atHand, Bool.and_eq_true, decide_eq_true_eq] at ha
      refine portLaw_of_one h (forwardPort (dirOf p)) _ (PortOk.enqueue (h (forwardPort (dirOf p))) ks hu (by omega)) fun q => ?_
      rw [hone]
      split
      · next hq => rw [hq]
      · rfl
  | placed p a ha =>
    obtain ⟨hl, hr⟩ := (slotFree_iff p s).1 (slotFree_of_nextClaim ha)
    rcases placeClaim_port_cases ha with hsame | ⟨r, hone⟩
    · exact portLaw_of_same h hsame
    · exact portLaw_of_one h p _ (PortOk.answered (h p) r hl hr) hone
  | noticePlaced p r rest _ _ hu hr =>
    exact portLaw_of_one h p _ (PortOk.enqueue (h p) [.notice (stamp s.notices r)] hu hr)
      (fun q => by simp [Machine.enqueue, State.port_setPort])
  | timedOut e =>
    intro q
    rcases expireDeadline_port e s q with hq | hq <;> rw [hq]
    · exact h q
    · exact PortOk.withdraw (h q) e
  | stalled p _ =>
    by_cases hrun : (s.port p).stallTimer = none
    · exact portLaw_of_same h fun q => by simp [expireStall_port, hrun]
    · exact portLaw_of_one h p _ (PortOk.stall (h p) hrun) fun q => by simp [expireStall_port, hrun]
  | countedDown => exact fun q => by rw [countDown_port]; exact PortOk.tick (h q)
  | _ => exact portLaw_of_same h (by simp)

/-- Settles O51: every change of the list keeps the laws of the ports. -/
theorem stepKeepsPortLaw : Obligations.StepKeepsPortLaw :=
  fun _ _ h hstep => step_keeps (fun _ _ _ hc => hc.keeps_portLaw) h hstep

/-! ## What changes a link state (Table 1-3) -/

/-- The link state of port `p` goes from `a` to `b` in an event of command `c`: it stays, or it moves as Table 1-3 gives. -/
inductive LinkMove (c : Option Instr) (p : Port) : LinkState → LinkState → Prop where
  | stays (a : LinkState) : LinkMove c p a a
  | opens : c = some (.linkEstablishment p) → LinkMove c p .down .up
  | closes (a : LinkState) : c = some (.linkLoss p) ∨ c = some .powerUpReset → LinkMove c p a .down
  | stalls : c = none ∨ c = some (.stallTimerExpiry p) → LinkMove c p .up .stalled
  | resumes (i : Byte) : 1 ≤ i.toNat → i.toNat ≤ 16 →
      (c = some (.creditArrival p i) ∨ ∃ b, c = some (.undefinedPacketArrival p b) ∧ readPacket b = .credit i) →
      LinkMove c p .stalled .up

/-- One command moves a link in one way only, so its moves in turn are one move. -/
theorem LinkMove.trans {p : Port} {a b d : LinkState} (h : LinkMove c p a b) (k : LinkMove c p b d) :
    LinkMove c p a d := by
  cases k with
  | stays => exact h
  | closes _ hk => exact .closes a hk
  | opens hk =>
    cases h with
    | stays => exact .opens hk
    | closes _ hc => subst hk; simp at hc
  | stalls hk =>
    cases h with
    | stays => exact .stalls hk
    | opens hc => subst hc; simp at hk
    | resumes i _ _ hc => rcases hc with rfl | ⟨b, rfl, -⟩ <;> simp at hk
  | resumes i h1 h16 hk =>
    cases h with
    | stays => exact .resumes i h1 h16 hk
    | stalls hc => rcases hk with rfl | ⟨b, rfl, -⟩ <;> simp at hc

theorem LinkMove.of_eq {p : Port} {a b : LinkState} (h : b = a) : LinkMove c p a b := by
  subst h
  exact .stays _

/-- A port replaced by one with the same link changes no link. -/
theorem State.setPort_link {s : State} {p q : Port} {x : PortState} (h : x.link = (s.port p).link) :
    ((s.setPort p x).port q).link = (s.port q).link := by
  rw [State.port_setPort]
  split
  · next hq => rw [hq, h]
  · rfl

/-- A port whose stall timer runs is UP (R126). -/
theorem PortTimer.link_up {x : PortState} (h : PortTimer x) (hrun : x.stallTimer ≠ none) : x.link = .up := by
  rw [PortTimer, Option.isSome_iff_ne_none.2 hrun] at h
  simp only [PortState.waitsForCredit, Bool.and_eq_true, decide_eq_true_eq, eq_comm (a := true)] at h
  exact h.1.1.1

theorem place_port_link_of {t s : State} {p q : Port} {r : Completion}
    (h : ∀ q, t.port q = if q = p then { s.port p with completions := (s.port p).completions ++ [r] } else s.port q) :
    (t.port q).link = (s.port q).link := by
  rw [h]
  split
  · next hq => rw [hq]
  · rfl

theorem FieldWrite.link {s t : State} (hw : FieldWrite s t) (q : Port) : (t.port q).link = (s.port q).link := by
  cases hw with
  | identity p n | tStall p v => exact State.setPort_link rfl
  | reset => rw [softReset_port]; rfl
  | _ => simp

/-- A change moves a link state as Table 1-3 gives. -/
theorem Change.linkMove {s t : State} (hc : Change c s t) (h : PortLaw s) (q : Port) :
    LinkMove c q (s.port q).link (t.port q).link := by
  have hone : ∀ (p : Port) (x : PortState), LinkMove c p (s.port p).link x.link →
      (t.port q = if q = p then x else s.port q) → LinkMove c q (s.port q).link (t.port q).link := by
    intro p x hx ht
    rw [ht]
    split
    · next hq => subst hq; exact hx
    · exact .stays _
  cases hc with
  | powerUp hp => cases q <;> exact .closes _ (.inr hp)
  | deasserted straps _ => exact .of_eq (by cases q <;> rfl)
  | opened p hp hd => exact hone p _ (hd ▸ .opens hp) (State.port_setPort ..)
  | closed p hp _ => exact hone p _ (.closes _ (.inl hp)) (linkLossState_port ..)
  | matched p a x g _ _ _ => exact .of_eq (by rw [(takeResult_tableChange _ _).port, State.port_setEntry])
  | credited p i hi hl h1 h16 =>
    refine hone p _ ?_ (State.port_setPort ..)
    cases hs : (s.port p).link with
    | down => exact absurd hs hl
    | up => exact .stays _
    | stalled => exact .resumes i h1 h16 hi
  | stored p r _ _ | discarded p | stray p | creditSent p l | completionSent p a rest q' l hq | headWaits p hi
  | taken p b _ => exact .of_eq (State.setPort_link rfl)
  | headSent p k rest hch hq =>
    refine hone p _ (.of_eq ?_) (departureState_port ..)
    obtain ⟨-, hready, -⟩ := (PortState.choice_eq_egress_iff _).1 hch
    rw [PortState.sendHead_of_ready k rest hready]
    rfl
  | answered p a _ => exact .of_eq (place_link p q a s)
  | acquired k node p tag _ =>
    rcases acquire_port_cases k node p tag s with hsame | ⟨r, hadd⟩
    · exact .of_eq (by rw [hsame])
    · exact .of_eq (place_port_link_of hadd)
  | released k node p tag g _ =>
    obtain ⟨r, hadd⟩ := release_port k node p tag g s
    exact .of_eq (place_port_link_of hadd)
  | wrote _ hw => exact .of_eq (hw.link q)
  | forwarded p r w _ _ _ _ _ =>
    rcases forward_port_cases p r w s with hsame | ⟨ks, -, hadd⟩
    · exact .of_eq (by rw [hsame])
    · exact .of_eq (by rw [hadd]; split <;> simp)
  | noticePlaced p r rest _ _ _ _ =>
    refine hone p ((s.port p).enqueue [.notice (stamp s.notices r)]) (.of_eq (by simp)) ?_
    simp [Machine.enqueue, State.port_setPort]
  | timedOut e =>
    refine .of_eq ?_
    rcases expireDeadline_port e s q with hq | hq <;> rw [hq]
    rfl
  | stalled p hp =>
    by_cases hrun : (s.port p).stallTimer = none
    · exact .of_eq (by simp [expireStall_port, hrun])
    · obtain ⟨-, -, ht⟩ := h p
      exact hone p (s.port p).stall (PortTimer.link_up ht hrun ▸ .stalls hp) (by simp [expireStall_port, hrun])
  | countedDown => exact .of_eq (by rw [countDown_port]; rfl)
  | _ => exact .of_eq (by simp)

/-- Changes one after the other move a link in one of the ways of Table 1-3. -/
theorem Changes.linkMove {s t : State} (hc : Changes c s t) (h : PortLaw s) (q : Port) :
    LinkMove c q (s.port q).link (t.port q).link := by
  have hboth : PortLaw t ∧ LinkMove c q (s.port q).link (t.port q).link :=
    hc.keeps (P := fun t => PortLaw t ∧ LinkMove c q (s.port q).link (t.port q).link)
      (fun _ _ hk ⟨hl, hm⟩ => ⟨hk.keeps_portLaw hl, hm.trans (hk.linkMove hl q)⟩) ⟨h, .stays _⟩
  exact hboth.2

/-- Settles O50: the moves of Table 1-3, each with its command at the front of the queue. -/
theorem linkStateChangesByItsEvents : Obligations.LinkStateChangesByItsEvents := by
  intro s t p h hstep hne
  have hmove := (step_changes hstep).linkMove h p
  have hfront : ∀ i, s.pending.head? = some i → ∃ rest, s.pending = i :: rest :=
    fun i hi => List.head?_eq_some_iff.1 hi
  generalize (s.port p).link = a at hmove hne
  generalize (t.port p).link = b at hmove hne
  cases hmove with
  | stays => exact absurd rfl hne
  | opens hc => exact .inl ⟨rfl, rfl, hfront _ hc⟩
  | closes _ hc =>
    refine .inr (.inl ⟨rfl, ?_⟩)
    rcases hc with hc | hc
    · exact (hfront _ hc).imp fun _ => .inl
    · exact (hfront _ hc).imp fun _ => .inr
  | stalls hc =>
    exact .inr (.inr (.inl ⟨rfl, rfl, hc.imp List.head?_eq_none_iff.1 (hfront _)⟩))
  | resumes i h1 h16 hc =>
    refine .inr (.inr (.inr ⟨rfl, rfl, ?_⟩))
    rcases hc with hc | ⟨b, hc, hb⟩
    · exact (hfront _ hc).elim fun rest hrest => ⟨i, rest, h1, h16, .inl hrest⟩
    · exact (hfront _ hc).elim fun rest hrest => ⟨i, rest, h1, h16, .inr ⟨b, hrest, hb⟩⟩

end Sys2Proof.Machine
end

section
/-! The laws of the notice unit, of the timebase and of the locks after every step (07, 08, 09 9.5). -/

namespace Sys2Proof.Machine

open Sys2Proof.Safety

variable {c : Option Instr}

/-! ## Changes that leave the settings -/

/-- `t` differs from `s` in ports, window tables, entries, done order, locks and free counter at most: the notice unit, the
timebase and every setting stand. -/
def SettingsKept (s t : State) : Prop :=
  t = { s with
    portU := t.portU, portD := t.portD, down := t.down, up := t.up, entries := t.entries, doneOrder := t.doneOrder,
    locks := t.locks, freeNext := t.freeNext }

namespace SettingsKept

theorem refl (s : State) : SettingsKept s s := rfl

theorem trans {s t u : State} (h : SettingsKept s t) (k : SettingsKept t u) : SettingsKept s u := by
  rw [SettingsKept] at *
  rw [h] at k
  exact k

theorem setPort (s : State) (p : Port) (x : PortState) : SettingsKept s (s.setPort p x) := by cases p <;> rfl

theorem setLock (s : State) (k : Fin 8) (x : Lock) : SettingsKept s (s.setLock k x) := rfl

theorem drawn (s : State) (n : Nat) : SettingsKept s (s.drawn n) := rfl

theorem of_table {s t : State} (h : TableChange s t) : SettingsKept s t := by
  rw [SettingsKept, h]

variable {s t : State} (h : SettingsKept s t)
include h

theorem notices : t.notices = s.notices := by rw [h]
theorem timebase : t.timebase = s.timebase := by rw [h]
theorem managers : t.managers = s.managers := by rw [h]
theorem resetN : t.resetN = s.resetN := by rw [h]
theorem pending : t.pending = s.pending := by rw [h]
theorem reserve (x : Dir) : t.reserve x = s.reserve x := by rw [h]; cases x <;> rfl
theorem tcto (x : Dir) : t.tcto x = s.tcto x := by rw [h]; cases x <;> rfl

end SettingsKept

theorem place_settingsKept (p : Port) (a : Completion) (s : State) : SettingsKept s (place p a s) := .setPort s p _

theorem placeOutbox_settingsKept (k : Fin 8) (s : State) : SettingsKept s (placeOutbox k s) := by
  unfold placeOutbox
  split
  · exact .refl s
  · exact (SettingsKept.setLock s k _).trans (place_settingsKept _ _ _)

theorem placeClaim_settingsKept (p : Port) (a : Claim) (s : State) : SettingsKept s (placeClaim p a s) := by
  cases a with
  | outbox k => exact placeOutbox_settingsKept k s
  | expired k =>
    simp only [placeClaim, placeExpired]
    split
    · exact .refl s
    · exact (SettingsKept.setLock s k _).trans (place_settingsKept _ _ _)
  | done e =>
    simp only [placeClaim, deliverDone]
    split
    · exact .refl s
    · exact (place_settingsKept _ _ s).trans (.of_table (deliver_tableChange _ _ _))

theorem acquire_settingsKept (k : Fin 8) (node : Node) (p : Port) (tag : Tag) (s : State) :
    SettingsKept s (acquire k node p tag s) := by
  simp only [acquire]
  split
  · exact (SettingsKept.setLock s k _).trans (placeOutbox_settingsKept k _)
  · split
    · exact (SettingsKept.setLock s k _).trans (place_settingsKept _ _ _)
    · split
      · exact place_settingsKept _ _ s
      · split
        · exact place_settingsKept _ _ s
        · exact .setLock s k _

theorem release_settingsKept (k : Fin 8) (node : Node) (p : Port) (tag : Tag) (g : Word32) (s : State) :
    SettingsKept s (release k node p tag g s) := by
  simp only [release]
  split
  · exact (SettingsKept.setLock s k _).trans (place_settingsKept _ _ _)
  · exact place_settingsKept _ _ s

theorem breakHold_settingsKept (k : Fin 8) (s : State) : SettingsKept s (breakHold k s) := by
  simp only [breakHold]
  split
  · exact .refl s
  · exact .setLock s k _

theorem expireLease_settingsKept (k : Fin 8) (s : State) : SettingsKept s (expireLease k s).1 := by
  simp only [expireLease]
  split
  · exact .setLock s k _
  · exact .setLock s k _
  · exact .refl s

theorem expireWait_settingsKept (k : Fin 8) (node : Node) (p : Port) (s : State) :
    SettingsKept s (expireWait k node p s) := by
  simp only [expireWait]
  split
  · exact .refl s
  · exact .setLock s k _

theorem expireQuarantine_settingsKept (e : Fin 64) (s : State) : SettingsKept s (expireQuarantine e s) := by
  unfold expireQuarantine
  split
  · exact .refl s
  · split
    · exact .of_table (.setEntry s e _)
    · exact .refl s

theorem expireDeadline_settingsKept (e : Fin 64) (s : State) : SettingsKept s (expireDeadline e s).1 := by
  unfold expireDeadline
  split
  · exact .refl s
  · split
    · exact .refl s
    · have hdrawn : ∀ (b : State) (l : List Raise), SettingsKept b (if l = [] then b else b.drawn 1) := by
        intro b l
        split
        · exact .refl b
        · exact .drawn b 1
      exact (((SettingsKept.setPort s _ _).trans (.of_table (.setEntry _ e _))).trans
        (.of_table (takeResult_tableChange e _))).trans (hdrawn _ _)

theorem enqueue_settingsKept (p : Port) (ks : List EgressPacket) (s : State) : SettingsKept s (enqueue p ks s) :=
  .setPort s p _

theorem forward_settingsKept (p : Port) (r : Request) (w : Fin 16) (s : State) : SettingsKept s (forward p r w s) := by
  simp only [forward]
  split
  · exact (SettingsKept.of_table (.setWindow s _ _ _)).trans (enqueue_settingsKept _ _ _)
  · split
    · exact .refl s
    · exact (SettingsKept.of_table ((TableChange.setWindow s _ _ _).trans (.setEntry _ _ _))).trans
        (enqueue_settingsKept _ _ _)

theorem segmentSent_settingsKept (e : Fin 64) (k : Nat) (s : State) : SettingsKept s (segmentSent e k s) := by
  rcases segmentSent_cases e k s with h | ⟨x, h⟩ <;> rw [h]
  · exact .refl s
  · exact .of_table (.setEntry s e _)

theorem departureState_settingsKept (p : Port) (k : EgressPacket) (rest : List EgressPacket) (s : State) :
    SettingsKept s (departureState p k rest s) := by
  cases k with
  | segment e n _ => exact (SettingsKept.setPort s p _).trans (segmentSent_settingsKept e n _)
  | pass | notice => exact .setPort s p _

theorem countDown_settingsKept (s : State) : SettingsKept s s.countDown := rfl

/-- A link loss leaves the settings; the notice unit counts the flushed notices (R167). -/
theorem linkLossState_settingsKept (p : Port) (s : State) :
    SettingsKept (countFlushed (noticesOf (s.port p).egress) s) (linkLossState p s) := by
  refine .trans ?_ (.drawn _ 3)
  refine .trans (.trans ?_ (.of_table (originLinkLoss_tableChange p _))) rfl
  refine .trans ?_ (.of_table (forwardLinkLoss_tableChange _ p _))
  cases p <;> rfl

/-- A stall leaves the settings; the notice unit counts the flushed notices (R167). -/
theorem expireStall_settingsKept (p : Port) (s : State) :
    SettingsKept (if (s.port p).stallTimer = none then s else countFlushed (noticesOf (s.port p).egress) s)
      (expireStall p s).1 := by
  unfold expireStall
  cases ht : (s.port p).stallTimer with
  | none => exact .refl s
  | some n =>
    refine .trans (.trans ?_ (.of_table (stallEntries_tableChange _ _))) (.drawn _ 1)
    cases p <;> rfl

/-! ## The notice unit and the timebase (R160, R163, R164, R187, R189) -/

/-- The bounds of the notice unit, of the unit itself. -/
def NoticeUnit.Sound (u : NoticeUnit) : Prop :=
  u.queue.length ≤ 16 ∧ u.droppedSince ≤ 65535 ∧ u.droppedTotal ≤ 4294967295 ∧ (u.targetPort = none → u.queue = [])

/-- The bounds of the timebase, of the timebase itself. -/
def Timebase.Sound (b : Timebase) : Prop := 25 ≤ b.divider ∧ b.divider ≤ 200 ∧ b.refclk < 200 ∧ b.msProgress ≤ 999

namespace NoticeUnit.Sound

variable {u : NoticeUnit}

theorem reset : NoticeUnit.reset.Sound := ⟨by decide, by decide, by decide, fun _ => rfl⟩

theorem dropped (h : u.Sound) (a b : Nat) : (u.dropped a b).Sound := by
  obtain ⟨hq, -, -, ht⟩ := h
  exact ⟨hq, Nat.min_le_left _ _, Nat.min_le_left _ _, ht⟩

theorem flushed (h : u.Sound) (ns : List StampedNotice) :
    (ns.foldl (fun u n => u.dropped (1 + n.dropped) 1) u).Sound := by
  induction ns generalizing u with
  | nil => exact h
  | cons n ns ih => exact ih (h.dropped _ _)

theorem drained (h : u.Sound) : u.drained.Sound := by
  obtain ⟨-, hs, ht, -⟩ := h.dropped u.queue.length u.queue.length
  exact ⟨Nat.zero_le _, hs, ht, fun _ => rfl⟩

theorem retarget (h : u.Sound) (q : Option Port) : (u.retarget q).Sound := by
  unfold NoticeUnit.retarget
  split
  · exact h
  · split
    · obtain ⟨hq, hs, ht, -⟩ := h.drained
      exact ⟨hq, hs, ht, fun _ => rfl⟩
    · obtain ⟨hq, hs, ht, -⟩ := h
      exact ⟨hq, hs, ht, fun hn => by cases hn⟩

end NoticeUnit.Sound

theorem raise_sound (x : Raise) {s : State} (h : s.notices.Sound) : (raise x s).notices.Sound := by
  rcases raise_cases x s with ⟨-, hr⟩ | ⟨-, -, -, hr⟩ | ⟨-, ht, hq, hr⟩ <;> rw [hr]
  · exact h
  · exact h.dropped 1 1
  · obtain ⟨-, hs, htot, -⟩ := h
    exact ⟨by simpa using hq, hs, htot, fun hn => absurd hn ht⟩

/-- The record that is placed leaves its place in the queue (R164). -/
theorem nextRecord_length {q rest : List NoticeRecord} {r : NoticeRecord} (h : nextRecord q = some (r, rest)) :
    rest.length + 1 = q.length := by
  unfold nextRecord at h
  split at h
  · next x hx =>
    cases h
    have hmem := List.mem_of_find?_eq_some hx
    rw [List.length_erase_of_mem hmem]
    exact Nat.succ_pred_eq_of_pos (List.length_pos_of_mem hmem)
  · split at h
    · cases h
    · cases h
      rfl

theorem Timebase.Sound.reset : Timebase.reset.Sound := ⟨by decide, by decide, by decide, by decide⟩

theorem Timebase.Sound.tick {b : Timebase} (h : b.Sound) : ({ b with refclk := 0 } : Timebase).tick.1.Sound := by
  obtain ⟨hlo, hhi, -, hms⟩ := h
  unfold Timebase.tick
  split
  · exact ⟨hlo, hhi, Nat.zero_lt_succ 199, Nat.zero_le _⟩
  · next hlt => exact ⟨hlo, hhi, Nat.zero_lt_succ 199, Nat.lt_of_not_le hlt⟩

/-- What a field's write does to the notice unit and the timebase keeps their bounds. -/
theorem FieldWrite.keeps_sound {s t : State} (hw : FieldWrite s t) (h : s.notices.Sound ∧ s.timebase.Sound) :
    t.notices.Sound ∧ t.timebase.Sound := by
  obtain ⟨hn, hb⟩ := h
  cases hw with
  | broken k => rw [(breakHold_settingsKept k s).notices, (breakHold_settingsKept k s).timebase]; exact ⟨hn, hb⟩
  | classes n v => exact ⟨hn, hb⟩
  | targetPort q => exact ⟨hn.retarget q, hb⟩
  | targetNode n => exact ⟨hn, hb⟩
  | divider v hlo hhi =>
    obtain ⟨-, -, -, hms⟩ := hb
    exact ⟨hn, hlo, hhi, Nat.zero_lt_succ 199, hms⟩
  | reset => exact ⟨(hn.flushed _).drained, hb⟩
  | _ => simpa using ⟨hn, hb⟩

/-- Every change keeps the bounds of the notice unit and of the timebase. -/
theorem Change.keeps_sound {s t : State} (hc : Change c s t) (h : s.notices.Sound ∧ s.timebase.Sound) :
    t.notices.Sound ∧ t.timebase.Sound := by
  have hkept : ∀ {u : State}, SettingsKept u t → u.notices.Sound ∧ u.timebase.Sound →
      t.notices.Sound ∧ t.timebase.Sound := by
    intro u hk hu
    rw [hk.notices, hk.timebase]
    exact hu
  obtain ⟨hn, hb⟩ := h
  cases hc with
  | powerUp => exact ⟨.reset, .reset⟩
  | deasserted straps _ =>
    obtain ⟨hlo, hhi, -, -⟩ := hb
    exact ⟨hn, hlo, hhi, Nat.zero_lt_succ 199, Nat.zero_le _⟩
  | closed p _ _ => exact hkept (linkLossState_settingsKept p s) ⟨hn.flushed _, hb⟩
  | stalled p _ =>
    refine hkept (expireStall_settingsKept p s) ?_
    split
    · exact ⟨hn, hb⟩
    · exact ⟨hn.flushed _, hb⟩
  | wrote _ hw => exact hw.keeps_sound ⟨hn, hb⟩
  | raised x => exact ⟨raise_sound x hn, by rwa [raise_timebase]⟩
  | noticePlaced p r rest ht hq _ _ =>
    refine hkept (enqueue_settingsKept _ _ _) ⟨?_, hb⟩
    obtain ⟨hlen, -, htot, -⟩ := hn
    have := nextRecord_length hq
    exact ⟨by dsimp only; omega, Nat.zero_le _, htot, fun hnone => by rw [ht] at hnone; cases hnone⟩
  | millisecond => exact ⟨hn, hb⟩
  | refclkCounted hlt =>
    obtain ⟨hlo, hhi, -, hms⟩ := hb
    exact ⟨hn, hlo, hhi, by dsimp only; omega, hms⟩
  | tickBegun => exact ⟨hn, hb.tick⟩
  | queued l => exact ⟨hn, hb⟩
  | opened p | stored p | discarded p | stray p | credited p | creditSent p | completionSent p | headWaits p | taken p
  | answered p => exact hkept (.setPort s p _) ⟨hn, hb⟩
  | matched p a x g _ _ _ =>
    exact hkept (.of_table ((TableChange.setEntry s _ _).trans (takeResult_tableChange _ _))) ⟨hn, hb⟩
  | headSent p k rest _ _ => exact hkept (departureState_settingsKept p k rest s) ⟨hn, hb⟩
  | acquired k node p tag _ => exact hkept (acquire_settingsKept k node p tag s) ⟨hn, hb⟩
  | released k node p tag g _ => exact hkept (release_settingsKept k node p tag g s) ⟨hn, hb⟩
  | forwarded p r w => exact hkept (forward_settingsKept p r w s) ⟨hn, hb⟩
  | placed p a _ => exact hkept (placeClaim_settingsKept p a s) ⟨hn, hb⟩
  | drew n => exact hkept (.drawn s n) ⟨hn, hb⟩
  | timedOut e => exact hkept (expireDeadline_settingsKept e s) ⟨hn, hb⟩
  | quarantineEnded e => exact hkept (expireQuarantine_settingsKept e s) ⟨hn, hb⟩
  | leaseEnded k => exact hkept (expireLease_settingsKept k s) ⟨hn, hb⟩
  | waitEnded k node p => exact hkept (expireWait_settingsKept k node p s) ⟨hn, hb⟩
  | countedDown => exact hkept (countDown_settingsKept s) ⟨hn, hb⟩

/-- Settles O57: every change of the list keeps the bounds of the notice unit and of the timebase. -/
theorem stepKeepsNoticeAndTimebase : Obligations.StepKeepsNoticeAndTimebase :=
  fun _ _ hn hb hstep => step_keeps (P := fun s => s.notices.Sound ∧ s.timebase.Sound)
    (fun _ _ _ hc => hc.keeps_sound) ⟨hn, hb⟩ hstep

end Sys2Proof.Machine
end

section
/-! The law of the locks after every step (07): waiters, pairs, grants and leases (R142, R146 to R148). -/

namespace Sys2Proof.Machine

open Sys2Proof.Safety

variable {c : Option Instr}

/-! ## The law of one lock -/

/-- What the law of the locks says of one lock, but for its hand-on: few waiters, each pair once, a grant that is the
holder's or LOCK_BROKEN, a lease for a placed holder only. -/
structure LockSound (x : Lock) : Prop where
  few : x.waiters.length ≤ 4
  once : (lockPairs x).Nodup
  granted : ∀ h, x.outbox = some h →
    (h.answer.status = .ok ∧ x.holder = some (h.answer.node, h.port)) ∨ (h.answer.status = .lockBroken ∧ x.holder = none)
  leased : x.lease.isSome = true → x.holder ≠ none ∧ x.outbox = none

/-- The law of one lock: it is sound, and handed on where it can be (R142). -/
structure LawfulLock (x : Lock) : Prop extends LockSound x where
  busy : x.waiters ≠ [] → x.holder ≠ none ∨ x.outbox ≠ none

theorem lockLaw_iff (s : State) : LockLaw s ↔ ∀ k, LawfulLock (s.lock k) :=
  ⟨fun h k => ⟨⟨(h k).1, (h k).2.1, (h k).2.2.2.1, (h k).2.2.2.2⟩, (h k).2.2.1⟩,
    fun h k => ⟨(h k).few, (h k).once, (h k).busy, (h k).granted, (h k).leased⟩⟩

theorem LockSound.lease_none {x : Lock} (h : LockSound x) (hh : x.holder = none) : x.lease = none := by
  cases hl : x.lease with
  | none => rfl
  | some n =>
    obtain ⟨hne, -⟩ := h.leased (by rw [hl]; rfl)
    exact absurd hh hne

theorem lockPairs_of_free {x : Lock} (hh : x.holder = none) : lockPairs x = x.waiters.map (fun w => (w.node, w.port)) := by
  simp [lockPairs, hh]

/-- A sound lock handed on meets the law (R142, R141). -/
theorem LockSound.handOn {x : Lock} (h : LockSound x) : LawfulLock x.handOn := by
  unfold Lock.handOn
  split
  · next w ws hh ho hw =>
    have hlease := h.lease_none hh
    have hfew := h.few
    have honce := h.once
    rw [lockPairs_of_free hh, hw] at honce
    rw [hw, List.length_cons] at hfew
    refine ⟨⟨by simp only [Lock.grant]; omega, ?_, fun a ha => ?_, fun hl => ?_⟩, fun _ => .inl (by simp [Lock.grant])⟩
    · simpa [Lock.grant, lockPairs] using honce
    · cases ha
      exact .inl ⟨rfl, rfl⟩
    · simp [Lock.grant, hlease] at hl
  · next hno =>
    refine ⟨h, fun hw => ?_⟩
    by_contra hfree
    rw [not_or, not_not, not_not] at hfree
    obtain ⟨w, ws, hws⟩ := List.exists_cons_of_ne_nil hw
    exact hno w ws hfree.1 hfree.2 hws

namespace LawfulLock

variable {x : Lock}

theorem reset : LawfulLock Lock.reset :=
  ⟨⟨by decide, by decide, (fun _ h => by cases h), (fun h => by cases h)⟩, fun h => absurd rfl h⟩

/-- The hold of a placed holder ended (R145, R147, R148). -/
theorem endHold (h : LawfulLock x) (ho : x.outbox = none) : LawfulLock x.endHold := by
  refine LockSound.handOn ⟨h.few, ?_, (fun a ha => by rw [ho] at ha; cases ha), (fun hl => by cases hl)⟩
  have := h.once
  simp only [lockPairs] at this ⊢
  exact (List.nodup_append.1 this).2.1

/-- A broken hold whose grant waits: the grant says so (R147, R110). -/
theorem broken (h : LawfulLock x) (a : HeldAnswer) :
    LawfulLock { x with holder := none, lease := none, outbox := some a.broken } := by
  refine ⟨⟨h.few, ?_, fun b hb => ?_, fun hl => by cases hl⟩, fun _ => .inr (by simp)⟩
  · have := h.once
    simp only [lockPairs] at this ⊢
    exact (List.nodup_append.1 this).2.1
  · cases hb
    exact .inr ⟨rfl, rfl⟩

/-- The outbox placed: an OK grant starts the lease, a LOCK_BROKEN one hands the lock on (R146, R142). -/
theorem outboxPlaced (h : LawfulLock x) {a : HeldAnswer} (ha : x.outbox = some a) :
    LawfulLock (x.outboxPlaced a.answer.status) := by
  unfold Lock.outboxPlaced
  split
  · next hok =>
    rcases h.granted a ha with ⟨-, hh⟩ | ⟨hb, -⟩
    · exact ⟨⟨h.few, h.once, (fun b hb => by cases hb), fun _ => ⟨by simp [hh], rfl⟩⟩, fun _ => .inl (by simp [hh])⟩
    · rw [hok] at hb
      cases hb
  · next hne =>
    rcases h.granted a ha with ⟨hok, -⟩ | ⟨-, hh⟩
    · exact absurd hok hne
    · have hnone := h.lease_none hh
      exact LockSound.handOn ⟨h.few, h.once, (fun b hb => by cases hb), (fun hl => by simp [hnone] at hl)⟩

/-- A free lock granted to a requester, and its grant placed at once (R140, R141). -/
theorem granted_placed (h : LawfulLock x) (hh : x.holder = none) (hw : x.waiters = []) (node : Node) (p : Port)
    (tag : Tag) : LawfulLock (x.grant node p tag) := by
  have hlease := h.lease_none hh
  refine ⟨⟨by simp [Lock.grant, hw], by simp [Lock.grant, lockPairs, hw], fun a ha => ?_, fun hl => ?_⟩,
    fun _ => .inl (by simp [Lock.grant])⟩
  · cases ha
    exact .inl ⟨rfl, rfl⟩
  · simp [Lock.grant, hlease] at hl

/-- A renewed lease (R143). -/
theorem renewed (h : LawfulLock x) (hh : x.holder ≠ none) (ho : x.outbox = none) (o : Option Nat) :
    LawfulLock { x with lease := o } :=
  ⟨⟨h.few, h.once, h.granted, fun _ => ⟨hh, ho⟩⟩, h.busy⟩

/-- A waiter appended where it neither holds nor waits, the lock not free (R144). -/
theorem append (h : LawfulLock x) (node : Node) (p : Port) (tag : Tag) (hfew : x.waiters.length < 4)
    (hh : x.holder ≠ some (node, p)) (hw : x.hasWaiter node p = false)
    (hbusy : x.holder ≠ none ∨ x.outbox ≠ none) : LawfulLock (x.append node p tag) := by
  refine ⟨⟨by simpa [Lock.append] using hfew, ?_, h.granted, h.leased⟩, fun _ => hbusy⟩
  have hnew : (node, p) ∉ lockPairs x := by
    simp only [lockPairs, List.mem_append, Option.mem_toList, List.mem_map, not_or]
    refine ⟨fun hm => hh hm, fun ⟨w, hwm, hwe⟩ => ?_⟩
    simp only [Prod.mk.injEq] at hwe
    have : x.hasWaiter node p = true := List.any_eq_true.2 ⟨w, hwm, decide_eq_true hwe⟩
    rw [hw] at this
    cases this
  have hpairs : lockPairs (x.append node p tag) = lockPairs x ++ [(node, p)] := by
    simp [lockPairs, Lock.append]
  rw [hpairs]
  exact List.nodup_append.2 ⟨h.once, List.nodup_singleton _, by
    intro a ha b hb hab
    rw [List.mem_singleton] at hb
    exact hnew (hb ▸ hab ▸ ha)⟩

/-- A waiter removed (R150). -/
theorem waitEnded (h : LawfulLock x) (w : Waiter) (l : List HeldAnswer) :
    LawfulLock { x with waiters := x.waiters.erase w, expired := l } := by
  have hsub : (x.waiters.erase w).Sublist x.waiters := List.erase_sublist
  refine ⟨⟨hsub.length_le.trans h.few, ?_, h.granted, h.leased⟩, fun hw => h.busy fun hnil => hw (by simp [hnil])⟩
  exact h.once.sublist ((hsub.map _).append_left _)

/-- The outer fields of a lock do not bear on its law. -/
theorem settings (h : LawfulLock x) (t w : BitVec 16) (l : List HeldAnswer) :
    LawfulLock { x with tLease := t, tWait := w, expired := l } :=
  ⟨⟨h.few, h.once, h.granted, h.leased⟩, h.busy⟩

/-- A link loss of port `p` (R153, R154). -/
theorem linkLoss (h : LawfulLock x) (p : Port) : LawfulLock (x.linkLoss p) := by
  have hsub : (x.waiters.filter (fun w => decide (w.port ≠ p))).Sublist x.waiters := List.filter_sublist
  have hfew := hsub.length_le.trans h.few
  have honce : (lockPairs { x with waiters := x.waiters.filter (fun w => decide (w.port ≠ p)) }).Nodup :=
    h.once.sublist ((hsub.map _).append_left _)
  have hkept : ∀ {o : Option HeldAnswer}, (∀ a, o = some a → x.outbox = some a) → (x.outbox = none → o = none) →
      LockSound { x with
        waiters := x.waiters.filter (fun w => decide (w.port ≠ p))
        expired := x.expired.filter (fun h => decide (h.port ≠ p))
        outbox := o } := by
    intro o ho hnone
    refine ⟨hfew, honce, fun a ha => h.granted a (ho a ha), fun hl => ?_⟩
    obtain ⟨hh, hout⟩ := h.leased hl
    exact ⟨hh, hnone hout⟩
  have hout : ∀ a, x.outbox.filter (fun h => decide (h.port ≠ p)) = some a → x.outbox = some a := by
    intro a ha
    exact (Option.filter_eq_some_iff.1 ha).1
  have hy := hkept hout (fun hn => by rw [hn]; rfl)
  unfold Lock.linkLoss
  dsimp only
  split
  · next n q hh =>
    split
    · next hq =>
      subst hq
      refine LockSound.handOn ⟨hfew, ?_, fun a ha => ?_, fun hl => by cases hl⟩
      · simp only [lockPairs] at honce ⊢
        exact (List.nodup_append.1 honce).2.1
      · obtain ⟨hx, hport⟩ := Option.filter_eq_some_iff.1 ha
        rcases h.granted a hx with ⟨-, hhold⟩ | ⟨-, hhold⟩
        · rw [hh] at hhold
          cases hhold
          simp at hport
        · rw [hh] at hhold
          cases hhold
    · exact ⟨hy, fun _ => .inl (by simp [hh])⟩
  · exact hy.handOn

theorem softReset (x : Lock) : LawfulLock x.softReset :=
  ⟨⟨Nat.zero_le _, List.nodup_nil, (fun _ h => by cases h), (fun h => by cases h)⟩, fun h => absurd rfl h⟩

theorem tick (h : LawfulLock x) : LawfulLock x.tick := by
  have hpairs : lockPairs x.tick = lockPairs x := by
    simp [lockPairs, Lock.tick, Function.comp_def]
  refine ⟨⟨by simpa [Lock.tick] using h.few, hpairs ▸ h.once, h.granted, fun hl => h.leased ?_⟩, fun hw => h.busy ?_⟩
  · simpa [Lock.tick, tickTimer] using hl
  · simpa [Lock.tick] using hw

end LawfulLock

/-! ## The locks after each larger change -/

theorem lockLaw_setLock {s : State} (h : ∀ k, LawfulLock (s.lock k)) (k : Fin 8) {x : Lock} (hx : LawfulLock x) :
    ∀ j, LawfulLock ((s.setLock k x).lock j) := by
  intro j
  rw [State.lock_setLock]
  split
  · exact hx
  · exact h j

theorem lockLaw_of_same {s t : State} (h : ∀ k, LawfulLock (s.lock k)) (ht : ∀ k, t.lock k = s.lock k) :
    ∀ k, LawfulLock (t.lock k) := fun k => ht k ▸ h k

theorem placeOutbox_lawful {s : State} (h : ∀ k, LawfulLock (s.lock k)) (k : Fin 8) :
    ∀ j, LawfulLock ((placeOutbox k s).lock j) := by
  unfold placeOutbox
  split
  · exact h
  · next a ha => exact lockLaw_of_same (lockLaw_setLock h k ((h k).outboxPlaced ha)) (by simp)

/-- A head that is given a slot finds no grant of its port waiting (R104). -/
theorem outbox_of_slotForHead {p : Port} {s : State} (h : slotForHead p s = true) {k : Fin 8} {a : HeldAnswer}
    (ha : (s.lock k).outbox = some a) : a.port ≠ p := by
  simp only [slotForHead, Bool.and_eq_true, Option.isNone_iff_eq_none] at h
  obtain ⟨hlocks, -⟩ := (topClaim_eq_none_iff p s).1 h.2
  intro hp
  have hk := hlocks k (List.mem_finRange k)
  simp [lockClaim, ha, hp] at hk

theorem acquire_lawful {s : State} (h : ∀ k, LawfulLock (s.lock k)) {p : Port} (hslot : slotForHead p s = true)
    (k : Fin 8) (node : Node) (tag : Tag) : ∀ j, LawfulLock ((acquire k node p tag s).lock j) := by
  simp only [acquire]
  split
  · next hfree =>
    obtain ⟨hh, -, hw⟩ := hfree
    exact placeOutbox_lawful (lockLaw_setLock h k ((h k).granted_placed hh hw node p tag)) k
  · next hnot =>
    split
    · next hh =>
      have ho : (s.lock k).outbox = none := by
        cases ho : (s.lock k).outbox with
        | none => rfl
        | some a =>
          rcases (h k).granted a ho with ⟨-, hhold⟩ | ⟨-, hhold⟩ <;> rw [hh] at hhold <;> cases hhold
          exact absurd rfl (outbox_of_slotForHead hslot ho)
      exact lockLaw_of_same (lockLaw_setLock h k ((h k).renewed (by simp [hh]) ho (msTicks (s.lock k).tLease)))
        (by simp)
    · next hh =>
      split
      · exact lockLaw_of_same h (by simp)
      · next hw =>
        split
        · exact lockLaw_of_same h (by simp)
        · next hfew =>
          refine lockLaw_setLock h k ((h k).append node p tag (by omega) hh (by simpa using hw) ?_)
          by_contra hno
          rw [not_or, not_not, not_not] at hno
          have hwait : (s.lock k).waiters ≠ [] := fun hnil => hnot ⟨hno.1, hno.2, hnil⟩
          exact ((h k).busy hwait).elim (fun hb => hb hno.1) (fun hb => hb hno.2)

theorem release_lawful {s : State} (h : ∀ k, LawfulLock (s.lock k)) {p : Port} (hslot : slotForHead p s = true)
    (k : Fin 8) (node : Node) (tag : Tag) (g : Word32) : ∀ j, LawfulLock ((release k node p tag g s).lock j) := by
  simp only [release]
  split
  · next hh =>
    have ho : (s.lock k).outbox = none := by
      cases ho : (s.lock k).outbox with
      | none => rfl
      | some a =>
        rcases (h k).granted a ho with ⟨-, hhold⟩ | ⟨-, hhold⟩ <;> rw [hh.1] at hhold <;> cases hhold
        exact absurd rfl (outbox_of_slotForHead hslot ho)
    exact lockLaw_of_same (lockLaw_setLock h k ((h k).endHold ho)) (by simp)
  · exact lockLaw_of_same h (by simp)

theorem breakHold_lawful {s : State} (h : ∀ k, LawfulLock (s.lock k)) (k : Fin 8) :
    ∀ j, LawfulLock ((breakHold k s).lock j) := by
  simp only [breakHold]
  split
  · exact h
  · refine lockLaw_setLock h k ?_
    cases ho : (s.lock k).outbox with
    | none => exact (h k).endHold ho
    | some a => exact (h k).broken a

@[simp] theorem State.lock_doneOrder (s : State) (l : List (Fin 64)) (k : Fin 8) :
    State.lock { s with doneOrder := l } k = s.lock k := rfl
@[simp] theorem State.lock_notices (s : State) (u : NoticeUnit) (k : Fin 8) :
    State.lock { s with notices := u } k = s.lock k := rfl
@[simp] theorem State.lock_timebase (s : State) (b : Timebase) (k : Fin 8) :
    State.lock { s with timebase := b } k = s.lock k := rfl
@[simp] theorem State.lock_managers (s : State) (m : Vector ManagerEntry 4) (k : Fin 8) :
    State.lock { s with managers := m } k = s.lock k := rfl
@[simp] theorem countFlushed_lock (ns : List StampedNotice) (s : State) (k : Fin 8) :
    (countFlushed ns s).lock k = s.lock k := rfl

@[simp] theorem locksLinkLoss_lock (p : Port) (s : State) (k : Fin 8) :
    (locksLinkLoss p s).lock k = (s.lock k).linkLoss p := by simp [locksLinkLoss, State.lock]

@[simp] theorem softReset_lock (s : State) (k : Fin 8) : (softReset s).lock k = (s.lock k).softReset := by
  simp [softReset, State.lock]

@[simp] theorem countDown_lock (s : State) (k : Fin 8) : s.countDown.lock k = (s.lock k).tick := by
  simp [State.countDown, State.lock]

@[simp] theorem linkLossState_lock (p : Port) (s : State) (k : Fin 8) :
    (linkLossState p s).lock k = (s.lock k).linkLoss p := by
  simp only [linkLossState, State.lock_drawn, locksLinkLoss_lock, (originLinkLoss_tableChange _ _).lock,
    (forwardLinkLoss_tableChange _ _ _).lock, countFlushed_lock, State.lock_setPort]

@[simp] theorem enqueue_lock (p : Port) (ks : List EgressPacket) (s : State) (k : Fin 8) :
    (enqueue p ks s).lock k = s.lock k := by simp [enqueue]

@[simp] theorem forward_lock (p : Port) (r : Request) (w : Fin 16) (s : State) (k : Fin 8) :
    (forward p r w s).lock k = s.lock k := by
  simp only [forward]
  split
  · simp
  · split <;> simp

@[simp] theorem segmentSent_lock (e : Fin 64) (n : Nat) (s : State) (k : Fin 8) :
    (segmentSent e n s).lock k = s.lock k := by
  rcases segmentSent_cases e n s with h | ⟨x, h⟩ <;> rw [h]
  exact State.lock_setEntry ..

@[simp] theorem departureState_lock (p : Port) (a : EgressPacket) (rest : List EgressPacket) (s : State) (k : Fin 8) :
    (departureState p a rest s).lock k = s.lock k := by
  cases a <;> simp [departureState]

@[simp] theorem expireQuarantine_lock (e : Fin 64) (s : State) (k : Fin 8) :
    (expireQuarantine e s).lock k = s.lock k := by
  unfold expireQuarantine
  split
  · rfl
  · split <;> simp

@[simp] theorem expireDeadline_lock (e : Fin 64) (s : State) (k : Fin 8) :
    (expireDeadline e s).1.lock k = s.lock k := by
  unfold expireDeadline
  split
  · rfl
  · split
    · rfl
    · have hdrawn : ∀ (b : State) (l : List Raise), (if l = [] then b else b.drawn 1).lock k = b.lock k := by
        intro b l
        split <;> simp
      simp only [hdrawn, (takeResult_tableChange e _).lock, State.lock_setEntry, State.lock_setPort]

@[simp] theorem expireStall_lock (p : Port) (s : State) (k : Fin 8) : (expireStall p s).1.lock k = s.lock k := by
  unfold expireStall
  split
  · rfl
  · simp only [State.lock_drawn, (stallEntries_tableChange _ _).lock, countFlushed_lock, State.lock_setPort]

/-! ## Every step keeps the law -/

theorem FieldWrite.keeps_lockLaw {s t : State} (hw : FieldWrite s t) (h : ∀ k, LawfulLock (s.lock k)) :
    ∀ k, LawfulLock (t.lock k) := by
  cases hw with
  | tLease k v => exact lockLaw_setLock h k ((h k).settings v _ _)
  | tWait k v => exact lockLaw_setLock h k ((h k).settings _ v _)
  | broken k => exact breakHold_lawful h k
  | reset => exact fun k => softReset_lock s k ▸ .softReset _
  | _ => exact lockLaw_of_same h (by simp)

/-- Every change keeps the law of the locks. -/
theorem Change.keeps_lockLaw {s t : State} (hc : Change c s t) (h : ∀ k, LawfulLock (s.lock k)) :
    ∀ k, LawfulLock (t.lock k) := by
  cases hc with
  | powerUp => exact fun k => (State.lock_reset k : State.reset.lock k = _) ▸ .reset
  | deasserted straps _ => exact h
  | closed p _ _ => exact fun k => linkLossState_lock p s k ▸ (h k).linkLoss p
  | wrote _ hw => exact hw.keeps_lockLaw h
  | acquired k node p tag hslot => exact acquire_lawful h hslot k node tag
  | released k node p tag g hslot => exact release_lawful h hslot k node tag g
  | placed p a _ =>
    cases a with
    | outbox k => exact placeOutbox_lawful h k
    | expired k =>
      simp only [placeClaim, placeExpired]
      split
      · exact h
      · next a _ =>
        exact lockLaw_of_same (lockLaw_setLock h k
          ((h k).settings (s.lock k).tLease (s.lock k).tWait ((s.lock k).expired.erase a))) (by simp)
    | done e =>
      simp only [placeClaim, deliverDone]
      split
      · exact h
      · exact lockLaw_of_same h (by simp)
  | leaseEnded k =>
    simp only [expireLease]
    split
    · next hl _ =>
      obtain ⟨-, ho⟩ := (h k).leased (by rw [hl]; rfl)
      exact lockLaw_setLock h k ((h k).endHold ho)
    · next hl hh =>
      obtain ⟨hne, -⟩ := (h k).leased (by rw [hl]; rfl)
      exact absurd hh hne
    · exact h
  | waitEnded k node p =>
    simp only [expireWait]
    split
    · exact h
    · exact lockLaw_setLock h k ((h k).waitEnded _ _)
  | countedDown => exact fun k => countDown_lock s k ▸ (h k).tick
  | matched p a x g _ _ _ =>
    exact lockLaw_of_same h fun k => by rw [(takeResult_tableChange _ _).lock, State.lock_setEntry]
  | discarded p => exact lockLaw_of_same h (by simp [countDiscard])
  | stray p => exact lockLaw_of_same h (by simp [countStray])
  | headWaits p => exact lockLaw_of_same h (by simp [headWaiting])
  | _ => exact lockLaw_of_same h (by simp)

/-- Settles O56: every change of the list keeps the law of each lock. -/
theorem stepKeepsLockLaw : Obligations.StepKeepsLockLaw := by
  intro s t h hstep
  rw [lockLaw_iff] at h ⊢
  exact step_keeps (P := fun s => ∀ k, LawfulLock (s.lock k)) (fun _ _ _ hc => hc.keeps_lockLaw) h hstep

end Sys2Proof.Machine
end

section
/-! The laws of the window tables after every step (02): fault records, ENABLE's checks, overlap, and targets apart from
identities (R8, R31 to R33, R41); and the part held in reset (R197). -/

namespace Sys2Proof.Machine

open Sys2Proof.Safety

variable {c : Option Instr}

/-! ## What can happen to a window in force -/

/-- A FAULTED window has a record, an ACTIVE one none (R41). -/
def Window.Recorded (w : Window) : Prop :=
  (w.state = .faulted → w.fault.isSome = true) ∧ (w.state = .active → w.fault = none)

/-- Two windows with the fields that ENABLE judges the same (R24). -/
def Window.SameRange (w v : Window) : Prop :=
  v.space = w.space ∧ v.base = w.base ∧ v.limit = w.limit ∧ v.translatedBase = w.translatedBase ∧
    v.target = w.target ∧ v.lockBinding = w.lockBinding

/-- Window `v` after `w`: in force only where `w` was, with the fields that ENABLE has judged, and a record as its state
asks. -/
def Window.Weakens (w v : Window) : Prop :=
  (v.inForce = true → w.inForce = true ∧ w.SameRange v) ∧ (w.Recorded → v.Recorded)

theorem Window.inForce_iff (w : Window) : w.inForce = true ↔ w.state ≠ .disabled := decide_eq_true_iff

namespace Window.Weakens

variable {w v x : Window}

theorem refl (w : Window) : w.Weakens w := ⟨fun h => ⟨h, rfl, rfl, rfl, rfl, rfl, rfl⟩, id⟩

theorem trans (h : w.Weakens v) (k : v.Weakens x) : w.Weakens x := by
  refine ⟨fun hx => ?_, fun hr => k.2 (h.2 hr)⟩
  obtain ⟨hv, a1, a2, a3, a4, a5, a6⟩ := k.1 hx
  obtain ⟨hw, b1, b2, b3, b4, b5, b6⟩ := h.1 hv
  exact ⟨hw, a1.trans b1, a2.trans b2, a3.trans b3, a4.trans b4, a5.trans b5, a6.trans b6⟩

/-- Counts do not bear on it. -/
theorem counts (w : Window) (n : Nat) (k : Word32) : w.Weakens { w with inFlight := n, hits := k } := refl w

/-- A window that is DISABLED afterwards is in force no more. -/
theorem of_disabled (h : v.state = .disabled) : w.Weakens v := by
  refine ⟨fun hv => absurd h ((inForce_iff v).1 hv), fun _ => ⟨fun hs => ?_, fun hs => ?_⟩⟩ <;> rw [h] at hs <;> cases hs

theorem release (w : Window) : w.Weakens w.release := by
  by_cases hd : w.state = .draining ∧ w.inFlight - 1 = 0
  · exact of_disabled (by rw [Window.release, if_pos hd])
  · have heq : w.release = { w with inFlight := w.inFlight - 1 } := by rw [Window.release, if_neg hd]
    rw [heq]
    exact counts w _ _

theorem applyFailure (w : Window) (f : FaultRecord) : w.Weakens (w.applyFailure f) := by
  have hrange : w.SameRange (w.applyFailure f) := by
    rw [Window.applyFailure_eq]
    exact ⟨rfl, rfl, rfl, rfl, rfl, rfl⟩
  refine ⟨fun hv => ⟨?_, hrange⟩, fun hr => ?_⟩
  · rw [inForce_iff] at hv ⊢
    intro hd
    rw [Window.applyFailure, hd] at hv
    exact hv hd
  · unfold Window.applyFailure
    cases hs : w.state with
    | active => exact ⟨fun _ => rfl, fun ha => by cases ha⟩
    | disabled => exact hr
    | faulted | draining =>
      cases w.fault <;> exact ⟨fun _ => rfl, fun ha => by dsimp only at ha; cases ha⟩

theorem close (w : Window) : w.Weakens w.close := by
  unfold Window.close
  cases hs : w.state with
  | disabled | draining => exact refl w
  | active | faulted =>
    refine ⟨fun _ => ⟨by rw [inForce_iff, hs]; decide, rfl, rfl, rfl, rfl, rfl, rfl⟩, fun _ => ?_⟩
    dsimp only
    split <;> exact ⟨(fun h => by cases h), (fun h => by cases h)⟩

theorem clearFault (w : Window) : w.Weakens w.clearFault := by
  unfold Window.clearFault
  refine ⟨fun hv => ⟨?_, rfl, rfl, rfl, rfl, rfl, rfl⟩, fun _ => ⟨fun h => ?_, fun _ => rfl⟩⟩
  · rw [inForce_iff] at hv ⊢
    intro hd
    simp [hd] at hv
  · by_cases hf : w.state = .faulted
    · simp [hf] at h
    · rw [show _ = _ from if_neg hf] at h
      exact absurd h hf

theorem softReset (w : Window) : w.Weakens w.softReset := by
  by_cases hd : w.state = .draining
  · exact of_disabled (by simp [Window.softReset, hd])
  · have heq : w.softReset = { w with inFlight := 0 } := by simp [Window.softReset, hd]
    rw [heq]
    exact counts w _ _

end Window.Weakens

/-- Every window of `t` after that of `s`. -/
def WindowsWeaken (s t : State) : Prop := ∀ d w, (s.window d w).Weakens (t.window d w)

namespace WindowsWeaken

theorem refl (s : State) : WindowsWeaken s s := fun _ _ => .refl _

theorem trans {s t u : State} (h : WindowsWeaken s t) (k : WindowsWeaken t u) : WindowsWeaken s u :=
  fun d w => (h d w).trans (k d w)

theorem of_same {s t : State} (h : ∀ d w, t.window d w = s.window d w) : WindowsWeaken s t := by
  intro d w
  rw [h]
  exact .refl _

theorem setWindow {s : State} {d : Dir} {w : Fin 16} {x : Window} (h : (s.window d w).Weakens x) :
    WindowsWeaken s (s.setWindow d w x) := by
  intro d' w'
  rw [State.window_setWindow]
  split
  · next hw =>
    obtain ⟨rfl, rfl⟩ := hw
    exact h
  · exact .refl _

theorem foldl {α : Type} (l : List α) (f : State → α → State) (h : ∀ s a, WindowsWeaken s (f s a)) (s : State) :
    WindowsWeaken s (l.foldl f s) := by
  induction l generalizing s with
  | nil => exact refl s
  | cons a l ih => exact (h s a).trans (ih (f s a))

variable {s t : State} (h : WindowsWeaken s t)
include h

theorem recordLaw (hr : RecordLaw s) : RecordLaw t := fun d w => (h d w).2 (hr d w)

theorem enabledLaw (he : EnabledLaw s) : EnabledLaw t := by
  intro d w hf
  obtain ⟨hs, -, hbase, hlimit, htrans, -, hbind⟩ := (h d w).1 hf
  obtain ⟨ha, hfit, hb⟩ := he d w hs
  simp only [Window.aligned, Window.fits, Window.bindingOk, hbase, hlimit, htrans, hbind] at ha hfit hb ⊢
  exact ⟨ha, hfit, hb⟩

theorem overlapLaw (ho : OverlapLaw s) : OverlapLaw t := by
  intro d v w hne hv hw hspace
  obtain ⟨hsv, hspacev, hbasev, hlimitv, -⟩ := (h d v).1 hv
  obtain ⟨hsw, hspacew, hbasew, hlimitw, -⟩ := (h d w).1 hw
  have := ho d v w hne hsv hsw (by rw [← hspacev, ← hspacew, hspace])
  simpa only [Window.meets, hbasev, hbasew, hlimitv, hlimitw] using this

theorem targetLaw (ht : TargetLaw s) (hid : ∀ p, (t.port p).identity = (s.port p).identity) : TargetLaw t := by
  intro d w hf
  obtain ⟨hs, -, -, -, -, htarget, -⟩ := (h d w).1 hf
  rw [htarget, hid]
  exact ht d w hs

end WindowsWeaken

/-! ## The windows after each larger change -/

@[simp] theorem State.window_doneOrder (s : State) (l : List (Fin 64)) (d : Dir) (w : Fin 16) :
    State.window { s with doneOrder := l } d w = s.window d w := by cases d <;> rfl
@[simp] theorem State.window_notices (s : State) (u : NoticeUnit) (d : Dir) (w : Fin 16) :
    State.window { s with notices := u } d w = s.window d w := by cases d <;> rfl
@[simp] theorem State.window_timebase (s : State) (b : Timebase) (d : Dir) (w : Fin 16) :
    State.window { s with timebase := b } d w = s.window d w := by cases d <;> rfl
@[simp] theorem State.window_managers (s : State) (m : Vector ManagerEntry 4) (d : Dir) (w : Fin 16) :
    State.window { s with managers := m } d w = s.window d w := by cases d <;> rfl
@[simp] theorem countFlushed_window (ns : List StampedNotice) (s : State) (d : Dir) (w : Fin 16) :
    (countFlushed ns s).window d w = s.window d w := by simp [countFlushed]
@[simp] theorem locksLinkLoss_window (p : Port) (s : State) (d : Dir) (w : Fin 16) :
    (locksLinkLoss p s).window d w = s.window d w := by cases d <;> rfl
@[simp] theorem countDown_window (s : State) (d : Dir) (w : Fin 16) : s.countDown.window d w = s.window d w := by
  cases d <;> rfl
@[simp] theorem softReset_window (s : State) (d : Dir) (w : Fin 16) :
    (softReset s).window d w = (s.window d w).softReset := by
  cases d <;> simp [softReset, State.window]

theorem deliver_window (e : Fin 64) (x : Entry) (s : State) (d : Dir) (w : Fin 16) :
    (deliver e x s).window d w = (releaseWindow x s).window d w := by cases d <;> rfl

theorem deliver_weakens (e : Fin 64) (x : Entry) (s : State) : WindowsWeaken s (deliver e x s) :=
  (WindowsWeaken.setWindow (d := x.dir) (w := x.window) (.release _)).trans (.of_same (deliver_window e x s))

theorem takeResult_weakens (e : Fin 64) (s : State) : WindowsWeaken s (takeResult e s).1 := by
  unfold takeResult
  dsimp only
  split
  · exact .refl s
  · split
    · split
      · split
        · exact deliver_weakens _ _ _
        · exact (WindowsWeaken.setWindow (.applyFailure _ _)).trans (deliver_weakens _ _ _)
      · split
        · exact deliver_weakens _ _ _
        · exact .of_same fun d w => by cases d <;> rfl
    · exact .refl s

theorem takeResults_weakens (es : List (Fin 64)) (s : State) : WindowsWeaken s (takeResults es s).1 := by
  rw [takeResults_fst]
  exact .foldl es _ (fun s e => takeResult_weakens e s) s

theorem foldl_setEntry_window (l : List (Fin 64)) (f : State → Fin 64 → Option Entry) (s : State) (d : Dir)
    (w : Fin 16) : (l.foldl (fun s e => s.setEntry e (f s e)) s).window d w = s.window d w := by
  induction l generalizing s with
  | nil => rfl
  | cons e l ih => rw [List.foldl_cons, ih, State.window_setEntry]

@[simp] theorem mapEntries_window (es : List (Fin 64)) (f : Entry → Entry) (s : State) (d : Dir) (w : Fin 16) :
    (mapEntries es f s).window d w = s.window d w :=
  foldl_setEntry_window es (fun s e => (s.entry e).map f) s d w

theorem stallEntries_weakens (ks : List EgressPacket) (s : State) : WindowsWeaken s (stallEntries ks s).1 :=
  (WindowsWeaken.of_same (by simp)).trans (takeResults_weakens _ _)

theorem forwardLinkLoss_weakens (n : Nat) (p : Port) (s : State) : WindowsWeaken s (forwardLinkLoss n p s).1 := by
  refine (WindowsWeaken.of_same fun d w => ?_).trans (takeResults_weakens _ _)
  rw [foldl_setEntry_window _ (fun _ _ => none), mapEntries_window, mapEntries_window]

theorem originLinkLoss_weakens (p : Port) (s : State) : WindowsWeaken s (originLinkLoss p s) := by
  refine (WindowsWeaken.of_same (t := mapEntries _ _ s) (by simp)).trans (.foldl _ _ (fun s e => ?_) _)
  split
  · exact deliver_weakens _ _ _
  · exact .refl s

theorem linkLossState_weakens (p : Port) (s : State) : WindowsWeaken s (linkLossState p s) := by
  have hport : WindowsWeaken s
      (countFlushed (noticesOf (s.port p).egress) (s.setPort p (s.port p).linkLost)) := .of_same (by simp)
  have htable := (hport.trans (forwardLinkLoss_weakens s.freeNext p _)).trans (originLinkLoss_weakens p _)
  exact htable.trans (.of_same fun d w => by rw [linkLossState, State.window_drawn, locksLinkLoss_window])

theorem expireStall_weakens (p : Port) (s : State) : WindowsWeaken s (expireStall p s).1 := by
  unfold expireStall
  split
  · exact .refl s
  · have hport : WindowsWeaken s
        (countFlushed (noticesOf (s.port p).egress) (s.setPort p (s.port p).stall)) := .of_same (by simp)
    exact (hport.trans (stallEntries_weakens _ _)).trans (.of_same fun d w => State.window_drawn ..)

theorem expireDeadline_weakens (e : Fin 64) (s : State) : WindowsWeaken s (expireDeadline e s).1 := by
  unfold expireDeadline
  split
  · exact .refl s
  · split
    · exact .refl s
    · have hdrawn : ∀ (b : State) (l : List Raise), WindowsWeaken b (if l = [] then b else b.drawn 1) := by
        intro b l
        split
        · exact .refl b
        · exact .of_same (by simp)
      exact .trans (.trans (.of_same (by simp)) (takeResult_weakens e _)) (hdrawn _ _)

theorem placeOutbox_window (k : Fin 8) (s : State) (d : Dir) (w : Fin 16) :
    (placeOutbox k s).window d w = s.window d w := by
  unfold placeOutbox
  split <;> simp

theorem placeClaim_weakens (p : Port) (a : Claim) (s : State) : WindowsWeaken s (placeClaim p a s) := by
  cases a with
  | outbox k => exact .of_same (placeOutbox_window k s)
  | expired k =>
    simp only [placeClaim, placeExpired]
    split
    · exact .refl s
    · exact .of_same (by simp)
  | done e =>
    simp only [placeClaim, deliverDone]
    split
    · exact .refl s
    · exact .trans (.of_same (by simp)) (deliver_weakens _ _ _)

theorem acquire_window (k : Fin 8) (node : Node) (p : Port) (tag : Tag) (s : State) (d : Dir) (w : Fin 16) :
    (acquire k node p tag s).window d w = s.window d w := by
  simp only [acquire]
  split
  · rw [placeOutbox_window]
    simp
  · split
    · simp
    · split
      · simp
      · split <;> simp

theorem release_window (k : Fin 8) (node : Node) (p : Port) (tag : Tag) (g : Word32) (s : State) (d : Dir) (w : Fin 16) :
    (release k node p tag g s).window d w = s.window d w := by
  simp only [release]
  split <;> simp

@[simp] theorem breakHold_window (k : Fin 8) (s : State) (d : Dir) (w : Fin 16) :
    (breakHold k s).window d w = s.window d w := by
  simp only [breakHold]
  split <;> simp

@[simp] theorem enqueue_window (p : Port) (ks : List EgressPacket) (s : State) (d : Dir) (w : Fin 16) :
    (enqueue p ks s).window d w = s.window d w := by simp [enqueue]

theorem forward_weakens (p : Port) (r : Request) (w : Fin 16) (s : State) : WindowsWeaken s (forward p r w s) := by
  have hcount : ∀ n k, WindowsWeaken s
      (s.setWindow (dirOf p) w { s.window (dirOf p) w with inFlight := n, hits := k }) :=
    fun n k => .setWindow (.counts _ n k)
  simp only [forward]
  split
  · exact (hcount (s.window (dirOf p) w).inFlight ((s.window (dirOf p) w).hits + 1)).trans (.of_same (by simp))
  · split
    · exact .refl s
    · exact (hcount _ _).trans (.of_same fun d v => by rw [enqueue_window, State.window_setEntry]; rfl)

@[simp] theorem segmentSent_window (e : Fin 64) (n : Nat) (s : State) (d : Dir) (w : Fin 16) :
    (segmentSent e n s).window d w = s.window d w := by
  rcases segmentSent_cases e n s with h | ⟨x, h⟩ <;> rw [h]
  exact State.window_setEntry ..

@[simp] theorem departureState_window (p : Port) (a : EgressPacket) (rest : List EgressPacket) (s : State) (d : Dir)
    (w : Fin 16) : (departureState p a rest s).window d w = s.window d w := by
  cases a <;> simp [departureState]

@[simp] theorem expireQuarantine_window (e : Fin 64) (s : State) (d : Dir) (w : Fin 16) :
    (expireQuarantine e s).window d w = s.window d w := by
  unfold expireQuarantine
  split
  · rfl
  · split <;> simp

@[simp] theorem expireLease_window (k : Fin 8) (s : State) (d : Dir) (w : Fin 16) :
    (expireLease k s).1.window d w = s.window d w := by
  simp only [expireLease]
  split <;> simp

@[simp] theorem expireWait_window (k : Fin 8) (node : Node) (p : Port) (s : State) (d : Dir) (w : Fin 16) :
    (expireWait k node p s).window d w = s.window d w := by
  simp only [expireWait]
  split <;> simp

/-- What a written field makes of the windows: no window comes in force but by an ENABLE that passes its checks (R30). -/
theorem FieldWrite.windows {s t : State} (hw : FieldWrite s t) :
    WindowsWeaken s t ∨ ∃ d w, s.enableStatus d w = .ok ∧
      t = s.setWindow d w { s.window d w with state := .active, fault := none } := by
  cases hw with
  | config d w x hd hx => exact .inl (.setWindow (.of_disabled (by rw [hx]; exact hd)))
  | hits d w => exact .inl (.setWindow (.counts _ _ _))
  | enable d w hok => exact .inr ⟨d, w, hok, rfl⟩
  | close d w => exact .inl (.setWindow (.close _))
  | clearFault d w => exact .inl (.setWindow (.clearFault _))
  | reset => exact .inl fun d w => softReset_window s d w ▸ .softReset _
  | _ => exact .inl (.of_same (by simp))

/-- What a change makes of the windows: no window comes in force but by an ENABLE that passes its checks (R30). -/
theorem Change.windows {s t : State} (hc : Change c s t) :
    WindowsWeaken s t ∨ ∃ d w, s.enableStatus d w = .ok ∧
      t = s.setWindow d w { s.window d w with state := .active, fault := none } := by
  cases hc with
  | wrote _ hw => exact hw.windows
  | powerUp => exact .inl fun d w => .of_disabled (congrArg Window.state (State.window_reset d w))
  | deasserted straps _ => exact .inl (.of_same fun d w => by cases d <;> rfl)
  | closed p _ _ => exact .inl (linkLossState_weakens p s)
  | matched p a x g _ _ _ => exact .inl (.trans (.of_same (by simp)) (takeResult_weakens _ _))
  | acquired k node p tag _ => exact .inl (.of_same (acquire_window k node p tag s))
  | released k node p tag g _ => exact .inl (.of_same (release_window k node p tag g s))
  | forwarded p r w => exact .inl (forward_weakens p r w s)
  | placed p a _ => exact .inl (placeClaim_weakens p a s)
  | timedOut e => exact .inl (expireDeadline_weakens e s)
  | stalled p _ => exact .inl (expireStall_weakens p s)
  | discarded p => exact .inl (.of_same (by simp [countDiscard]))
  | stray p => exact .inl (.of_same (by simp [countStray]))
  | headWaits p _ => exact .inl (.of_same (by simp [headWaiting]))
  | _ => exact .inl (.of_same (by simp))

/-! ## ENABLE (R30 to R33) -/

/-- What an ENABLE that passes has checked. -/
theorem State.enableStatus_ok {s : State} {t : Dir} {w : Fin 16} (h : s.enableStatus t w = .ok) :
    (s.window t w).state = .disabled ∧ (s.window t w).aligned = true ∧ (s.window t w).fits = true ∧
      (s.window t w).target ≠ (s.port (forwardPort t)).identity ∧ (s.window t w).bindingOk = true ∧
      s.overlapsAnother t w = false := by
  unfold State.enableStatus at h
  dsimp only at h
  split_ifs at h with h1 h2 h3 h4 h5 h6
  exact ⟨not_not.1 h1, by simpa using h2, by simpa using h3, h4, by simpa using h5, by simpa using h6⟩

theorem Window.meets_comm (w v : Window) : w.meets v = v.meets w := by
  simp [Window.meets, Bool.and_comm]

/-- An ENABLE that passes its checks keeps the laws of the windows. -/
theorem windowLaws_enable {s : State} {d : Dir} {w : Fin 16} (hok : s.enableStatus d w = .ok)
    (h : RecordLaw s ∧ EnabledLaw s ∧ OverlapLaw s) :
    RecordLaw (s.setWindow d w { s.window d w with state := .active, fault := none }) ∧
    EnabledLaw (s.setWindow d w { s.window d w with state := .active, fault := none }) ∧
    OverlapLaw (s.setWindow d w { s.window d w with state := .active, fault := none }) := by
  obtain ⟨hr, he, ho⟩ := h
  obtain ⟨-, ha, hf, -, hb, hover⟩ := State.enableStatus_ok hok
  have hapart : ∀ v, v ≠ w → (s.window d v).inForce = true → (s.window d v).space = (s.window d w).space →
      (s.window d w).meets (s.window d v) = false := by
    intro v hne hv hs
    have := List.any_eq_false.1 hover v (List.mem_finRange v)
    simpa [hne, hv, hs] using this
  refine ⟨fun t v => ?_, fun t v hv => ?_, fun t u v hne hu hv hs => ?_⟩
  · rw [State.window_setWindow]
    split
    · exact ⟨(fun h => by cases h), fun _ => rfl⟩
    · exact hr t v
  · rw [State.window_setWindow] at hv ⊢
    by_cases htv : t = d ∧ v = w
    · rw [if_pos htv]
      exact ⟨ha, hf, hb⟩
    · rw [if_neg htv] at hv ⊢
      exact he t v hv
  · rw [State.window_setWindow] at hu hv hs ⊢
    rw [State.window_setWindow] at hs ⊢
    split at hu
    · next huw =>
      obtain ⟨rfl, rfl⟩ := huw
      have hvw : ¬ (t = t ∧ v = u) := fun hv => hne hv.2.symm
      rw [if_neg hvw] at hv hs ⊢
      simp only [and_self, if_true] at hs ⊢
      exact hapart v (Ne.symm hne) hv hs.symm
    · next huw =>
      split at hv
      · next hvw =>
        obtain ⟨rfl, rfl⟩ := hvw
        rw [if_neg huw] at hs ⊢
        simp only [and_self, if_true] at hs ⊢
        rw [Window.meets_comm]
        exact hapart u hne hu hs
      · next hvw =>
        rw [if_neg huw, if_neg hvw] at hs
        rw [if_neg huw, if_neg hvw]
        exact ho t u v hne hu hv hs

/-- Settles O52: a change weakens the windows, or is an ENABLE whose checks have passed. -/
theorem stepKeepsWindowLaws : Obligations.StepKeepsWindowLaws := by
  intro s t hr he ho hstep
  refine step_keeps (P := fun s => RecordLaw s ∧ EnabledLaw s ∧ OverlapLaw s) (fun c s t hc h => ?_) ⟨hr, he, ho⟩ hstep
  rcases hc.windows with hw | ⟨d, w, hok, rfl⟩
  · exact ⟨hw.recordLaw h.1, hw.enabledLaw h.2.1, hw.overlapLaw h.2.2⟩
  · exact windowLaws_enable hok h

end Sys2Proof.Machine
end

section
/-! The part held in reset (R20, R197), its power-up values and the rise of RESET_N; windows in force never target the
identity of their forward port (R8, R32). -/

namespace Sys2Proof.Machine

open Sys2Proof.Safety

variable {c : Option Instr}

/-! ## While RESET_N is low -/

section Held

variable {s : State} (h : HeldInReset s)
include h

theorem HeldInReset.port (p : Port) : s.port p = PortState.reset := by rw [h]; cases p <;> rfl
theorem HeldInReset.entry (e : Fin 64) : s.entry e = none := by rw [h]; exact State.entry_reset e
theorem HeldInReset.lock (k : Fin 8) : s.lock k = Lock.reset := by rw [h]; exact State.lock_reset k
theorem HeldInReset.window (d : Dir) (w : Fin 16) : s.window d w = Window.reset := by
  rw [h]
  exact Eq.trans (by cases d <;> rfl) (State.window_reset d w)
theorem HeldInReset.resetN : s.resetN = false := by rw [h]; rfl
theorem HeldInReset.targetPort : s.notices.targetPort = none := by rw [h]; rfl
theorem HeldInReset.link (p : Port) : (s.port p).link = .down := by rw [HeldInReset.port h]; rfl

/-- Both ports are DOWN and no head waits, so nothing is to be settled. -/
theorem HeldInReset.atRest : AtRest s := by
  refine ⟨fun p => ?_, fun p => ?_⟩
  · simp [nextClaim, slotFree, HeldInReset.link h]
  · rw [waitingTake, HeldInReset.port h]
    rfl

theorem HeldInReset.targetLaw : TargetLaw s := by
  intro d w hf
  rw [HeldInReset.window h] at hf
  cases hf

/-- Where RESET_N is low no command but its rise changes anything (R197, R20). -/
theorem exec_of_heldInReset {i : Instr} (hi : ∀ straps, i ≠ .resetNDeassertion straps) : exec i s = .next s := by
  have hdown := HeldInReset.link h
  have hchoice : ∀ p, (s.port p).choice = .nothing := fun p => by rw [HeldInReset.port h]; rfl
  have hsettle := settle_of_atRest s (HeldInReset.atRest h)
  have hsettles := fun es => settleWith_of_atRest es s (HeldInReset.atRest h)
  have hreq : ∀ p r, arriveRequest p r s = s := fun p r => by simp [arriveRequest, hdown]
  have hcpl : ∀ p a, arriveCompletion p a s = s := fun p a => by simp [arriveCompletion, hdown]
  have hcrd : ∀ p j, arriveCredit p j s = s := fun p j => by simp [arriveCredit, hdown]
  have hdis : ∀ p, arriveDiscarded p s = s := fun p => by simp [arriveDiscarded, hdown]
  have hgive : ∀ p a, giveSlot p a s = s := fun p a => by simp [giveSlot, (HeldInReset.atRest h).1 p]
  by_cases hr : ∃ p r, requestOf i s = some (p, r)
  · obtain ⟨p, r, hr⟩ := hr
    rw [exec_requestOf i p r s hr, presentRequest, if_pos (hdown p)]
  cases i with
  | powerUpReset => exact congrArg Host.Outcome.next h.symm
  | resetNDeassertion straps => exact absurd rfl (hi straps)
  | linkEstablishment p => simp [exec, execLinkEstablishment, HeldInReset.resetN h]
  | linkLoss p => simp [exec, execLinkLoss, hdown]
  | requestArrival p r => simp [exec, execRequestArrival, hreq]
  | completionArrival p a => simp [exec, execCompletionArrival, hcpl]
  | noticeArrival p n => simp [exec, execNoticeArrival, hdis]
  | creditArrival p j => simp [exec, execCreditArrival, hcrd]
  | undefinedPacketArrival p b =>
    cases hb : readPacket b <;> simp [exec, execUndefinedPacketArrival, hb, hreq, hcpl, hcrd, hdis]
  | crdDeparture p => simp [exec, execCrdDeparture, hchoice]
  | completionDeparture p => simp [exec, execCompletionDeparture, hchoice]
  | egressDeparture p => simp [exec, execEgressDeparture, hchoice]
  | admissionJudgement p =>
    have hempty : (s.port p).ingress = [] := by rw [HeldInReset.port h]; rfl
    simp [exec, execAdmissionJudgement, judgeHead_of_empty p s hempty]
  | noticePlacement => simp [exec, execNoticePlacement, HeldInReset.targetPort h]
  | doneEntryDelivery e => simp [exec, execDoneEntryDelivery, HeldInReset.entry h]
  | outboxGrantPlacing k => simp [exec, execOutboxGrantPlacing, HeldInReset.lock h, Lock.reset]
  | expiryAnswerPlacing k p => simp [exec, execExpiryAnswerPlacing, hgive]
  | completionDeadlineExpiry e =>
    simp [exec, execCompletionDeadlineExpiry, expireDeadline, HeldInReset.entry h, hsettles]
  | quarantineExpiry e => simp [exec, execQuarantineExpiry, expireQuarantine, HeldInReset.entry h, hsettle]
  | stallTimerExpiry p =>
    have ht : (s.port p).stallTimer = none := by rw [HeldInReset.port h]; rfl
    simp [exec, execStallTimerExpiry, expireStall, ht, hsettles]
  | leaseExpiry k => simp [exec, execLeaseExpiry, expireLease, HeldInReset.lock h, Lock.reset, hsettles]
  | waitExpiry k node p => simp [exec, execWaitExpiry, expireWait, HeldInReset.lock h, Lock.reset, hsettle]
  | millisecondCountIncrement => simp [exec, execMillisecondCountIncrement, HeldInReset.resetN h]
  | windowFieldWrite q t w f => cases f <;> exact absurd ⟨_, _, rfl⟩ hr
  | _ => exact absurd ⟨_, _, rfl⟩ hr

end Held

/-- Settles O7: with both ports DOWN and every block at its power-up values each command finds nothing to change. -/
theorem heldResetIgnoresCommands : Obligations.HeldResetIgnoresCommands :=
  fun _ _ h hi => exec_of_heldInReset h hi

/-! ## RESET_N after every change -/

theorem FieldWrite.resetN {s t : State} (hw : FieldWrite s t) : t.resetN = s.resetN := by
  cases hw with
  | broken k => exact (breakHold_settingsKept k s).resetN
  | _ => first | rfl | simp

theorem Change.resetN {s t : State} (hc : Change c s t) (hp : c ≠ some .powerUpReset) (h : s.resetN = true) :
    t.resetN = true := by
  have hkept : ∀ {u : State}, SettingsKept u t → u.resetN = true → t.resetN = true := fun hk hu => hk.resetN.trans hu
  cases hc with
  | powerUp hc => exact absurd hc hp
  | deasserted straps _ => rfl
  | closed p _ _ => exact hkept (linkLossState_settingsKept p s) h
  | stalled p _ => exact hkept (expireStall_settingsKept p s) (by split <;> exact h)
  | wrote _ hw => exact hw.resetN.trans h
  | raised x => exact (raise_resetN x s).trans h
  | noticePlaced p r rest => exact hkept (enqueue_settingsKept _ _ _) h
  | matched p a x g _ _ _ => exact hkept (.of_table (takeResult_tableChange _ _)) h
  | headSent p k rest _ _ => exact hkept (departureState_settingsKept p k rest s) h
  | acquired k node p tag _ => exact hkept (acquire_settingsKept k node p tag s) h
  | released k node p tag g _ => exact hkept (release_settingsKept k node p tag g s) h
  | forwarded p r w => exact hkept (forward_settingsKept p r w s) h
  | placed p a _ => exact hkept (placeClaim_settingsKept p a s) h
  | timedOut e => exact hkept (expireDeadline_settingsKept e s) h
  | quarantineEnded e => exact hkept (expireQuarantine_settingsKept e s) h
  | leaseEnded k => exact hkept (expireLease_settingsKept k s) h
  | waitEnded k node p => exact hkept (expireWait_settingsKept k node p s) h
  | opened p | stored p | discarded p | stray p | credited p | creditSent p | completionSent p | headWaits p | taken p
  | answered p => exact hkept (.setPort s p _) h
  | queued | drew | millisecond | refclkCounted | tickBegun | countedDown => exact h

/-! ## Identities after every change (R8) -/

theorem State.setPort_identity {s : State} {p q : Port} {x : PortState} (h : x.identity = (s.port p).identity) :
    ((s.setPort p x).port q).identity = (s.port q).identity := by
  rw [State.port_setPort]
  split
  · next hq => rw [hq, h]
  · rfl

/-- A completion added at a port, as several changes add it, leaves every identity. -/
theorem identity_of_completion {s t : State} {p : Port} {r : Completion}
    (h : ∀ q, t.port q = if q = p then { s.port p with completions := (s.port p).completions ++ [r] } else s.port q)
    (q : Port) : (t.port q).identity = (s.port q).identity := by
  rw [h]
  split
  · next hq => rw [hq]
  · rfl

/-- Where RESET_N is high the only change to an identity is its write (R8). -/
theorem Change.identity {s t : State} (hc : Change c s t) (hp : c ≠ some .powerUpReset) (h : s.resetN = true) :
    (∀ q, (t.port q).identity = (s.port q).identity) ∨
    ∃ p n, s.targetInForce p n = false ∧ t = s.setPort p { s.port p with identity := n } := by
  cases hc with
  | powerUp hc => exact absurd hc hp
  | deasserted straps hr => rw [h] at hr; cases hr
  | wrote _ hw =>
    cases hw with
    | identity p n _ htarget => exact .inr ⟨p, n, htarget, rfl⟩
    | tStall p v => exact .inl fun q => State.setPort_identity rfl
    | reset => exact .inl fun q => by rw [softReset_port]; rfl
    | _ => exact .inl fun q => by simp
  | closed p _ _ =>
    refine .inl fun q => ?_
    rw [linkLossState_port]
    split
    · next hq => rw [hq]; rfl
    · rfl
  | opened p | stored p | discarded p | stray p | credited p | creditSent p | completionSent p | headWaits p | taken p =>
    exact .inl fun q => State.setPort_identity rfl
  | answered p a _ => exact .inl fun q => State.setPort_identity (p := p) rfl
  | matched p a x g _ _ _ => exact .inl fun q => by rw [(takeResult_tableChange _ _).port, State.port_setEntry]
  | headSent p k rest hch _ =>
    refine .inl fun q => ?_
    obtain ⟨-, hready, -⟩ := (PortState.choice_eq_egress_iff _).1 hch
    rw [departureState_port, PortState.sendHead_of_ready k rest hready]
    split
    · next hq => rw [hq]; rfl
    · rfl
  | acquired k node p tag _ =>
    rcases acquire_port_cases k node p tag s with hsame | ⟨r, hadd⟩
    · exact .inl fun q => by rw [hsame]
    · exact .inl (identity_of_completion hadd)
  | released k node p tag g _ =>
    obtain ⟨r, hadd⟩ := release_port k node p tag g s
    exact .inl (identity_of_completion hadd)
  | forwarded p r w _ _ _ _ _ =>
    rcases forward_port_cases p r w s with hsame | ⟨ks, -, hadd⟩
    · exact .inl fun q => by rw [hsame]
    · exact .inl fun q => by rw [hadd, PortState.enqueue_eq]; split <;> rfl
  | placed p a ha =>
    rcases placeClaim_port_cases ha with hsame | ⟨r, hadd⟩
    · exact .inl fun q => by rw [hsame]
    · exact .inl (identity_of_completion hadd)
  | noticePlaced p r rest _ _ _ _ =>
    refine .inl fun q => ?_
    simp only [Machine.enqueue, State.port_setPort, State.port_notices]
    rw [PortState.enqueue_eq]
    split
    · next hq => rw [hq]
    · rfl
  | timedOut e =>
    refine .inl fun q => ?_
    rcases expireDeadline_port e s q with hq | hq <;> rw [hq]
    rfl
  | stalled p _ =>
    refine .inl fun q => ?_
    rw [expireStall_port]
    split
    · next hq => rw [hq.1]; rfl
    · rfl
  | countedDown => exact .inl fun q => by rw [countDown_port]; rfl
  | _ => exact .inl fun q => by simp

/-- A write of an identity that no window in force targets keeps the targets apart (R8 check 3). -/
theorem targetLaw_identity {s : State} {p : Port} {n : Node} (h : TargetLaw s) (hn : s.targetInForce p n = false) :
    TargetLaw (s.setPort p { s.port p with identity := n }) := by
  intro t w hf
  rw [State.window_setPort] at hf ⊢
  rw [State.port_setPort]
  split
  · next hp =>
    have ht : otherDir (dirOf p) = t := by subst hp; cases t <;> rfl
    have := List.any_eq_false.1 hn w (List.mem_finRange w)
    rw [ht] at this
    simpa [hf] using this
  · exact h t w hf

/-- Where RESET_N is high every change keeps the targets apart from the identities. -/
theorem Change.keeps_targetLaw {s t : State} (hc : Change c s t) (hp : c ≠ some .powerUpReset)
    (h : s.resetN = true ∧ TargetLaw s) : t.resetN = true ∧ TargetLaw t := by
  obtain ⟨hr, ht⟩ := h
  refine ⟨hc.resetN hp hr, ?_⟩
  rcases hc.identity hp hr with hid | ⟨p, n, hn, rfl⟩
  · rcases hc.windows with hw | ⟨d, w, hok, rfl⟩
    · exact hw.targetLaw ht hid
    · intro d' w' hf
      rw [State.port_setWindow]
      rw [State.window_setWindow] at hf ⊢
      by_cases hdw : d' = d ∧ w' = w
      · obtain ⟨rfl, rfl⟩ := hdw
        obtain ⟨-, -, -, htarget, -⟩ := State.enableStatus_ok hok
        simpa using htarget
      · rw [if_neg hdw] at hf ⊢
        exact ht d' w' hf
  · exact targetLaw_identity ht hn

/-- Settles O53: with RESET_N low nothing happens but its rise, which finds every window DISABLED; with RESET_N high every
change keeps it so, but for a power-up reset. -/
theorem stepKeepsTargetsApart : Obligations.StepKeepsTargetsApart := by
  intro s t hreset htarget hstep
  have hhigh : ∀ u : State, u.resetN = true → TargetLaw u → ResetLaw u ∧ TargetLaw u :=
    fun u hu ht => ⟨fun hn => absurd (hu.symm.trans hn) (by decide), ht⟩
  have hheld : ∀ u : State, HeldInReset u → ResetLaw u ∧ TargetLaw u := fun u hu => ⟨fun _ => hu, HeldInReset.targetLaw hu⟩
  by_cases hpower : s.pending.head? = some .powerUpReset
  · obtain ⟨rest, hp⟩ := List.head?_eq_some_iff.1 hpower
    simp only [step, hp] at hstep
    cases hstep
    exact hheld _ rfl
  cases hn : s.resetN with
  | true =>
    obtain ⟨hr, ht⟩ := (step_changes hstep).keeps (P := fun u => u.resetN = true ∧ TargetLaw u)
      (fun _ _ hc => hc.keeps_targetLaw hpower) ⟨hn, htarget⟩
    exact hhigh t hr ht
  | false =>
    have hs := hreset hn
    cases hp : s.pending with
    | nil =>
      simp only [step, hp, refclkPeriod, hn] at hstep
      cases hstep
      exact hheld _ hs
    | cons i rest =>
      have hrest : HeldInReset { s with pending := rest } := by
        rw [HeldInReset] at hs ⊢
        rw [hs]
      simp only [step, hp] at hstep
      by_cases hi : ∃ straps, i = .resetNDeassertion straps
      · obtain ⟨straps, rfl⟩ := hi
        have hlow : State.resetN { s with pending := rest } ≠ true := by simp [hn]
        rw [exec, execResetNDeassertion, if_neg hlow] at hstep
        cases hstep
        refine hhigh _ rfl fun d w hf => ?_
        have hw : s.window d w = Window.reset := HeldInReset.window hs d w
        rw [show State.window _ d w = s.window d w by cases d <;> rfl, hw] at hf
        cases hf
      · rw [exec_of_heldInReset hrest fun straps hst => hi ⟨straps, hst⟩] at hstep
        cases hstep
        exact hheld _ hrest

/-! ## Power-up reset and the rise of RESET_N -/

/-- Settles O5: the ports, managers and timebase after power-up are those of the part in reset; with no valid entry in the
list every requester is a manager. -/
theorem powerUpHoldsPortsDown : Obligations.PowerUpHoldsPortsDown := by
  intro s
  refine ⟨_, rfl, rfl, rfl, fun p => ?_, fun i => ?_, fun node port => ?_, rfl, rfl⟩
  · cases p <;> exact ⟨rfl, rfl, rfl, rfl, rfl, rfl, rfl, rfl, rfl, rfl, rfl, rfl, rfl⟩
  · simp [State.reset]
  · simp [State.manager, State.reset]

/-- Settles O6: the rise happens where RESET_N is low, and nowhere else. -/
theorem deassertionLoadsStraps : Obligations.DeassertionLoadsStraps := by
  intro straps s
  refine ⟨fun hn => ?_, fun hn => ?_⟩
  · have hlow : ¬ s.resetN = true := by simp [hn]
    rw [exec, execResetNDeassertion, if_neg hlow]
  · rw [exec, execResetNDeassertion, if_pos hn]

/-- Settles O60: the count is 32 bits wide, so its successor wraps at the last value; RESET_N low stops the row. -/
theorem millisecondCountWraps : Obligations.MillisecondCountWraps := by
  intro s
  refine ⟨fun hn => ⟨_, by rw [exec, execMillisecondCountIncrement, if_pos hn], rfl, ?_⟩, fun hn => ?_⟩
  · have hlt := s.timebase.msCount.isLt
    have hone : (1 : Word32).toNat = 1 := rfl
    rw [BitVec.toNat_add, hone]
    split <;> omega
  · have hlow : ¬ s.resetN = true := by simp [hn]
    rw [exec, execMillisecondCountIncrement, if_neg hlow]

/-- Settles O1: a step is defined by the command at the front of the queue. -/
theorem stepRunsFrontCommand : Obligations.StepRunsFrontCommand := by
  intro c rest s hp
  rw [step, hp]

/-- Settles O59: the part in reset is held in reset, with every entry FREE, every lock free and every window DISABLED. -/
theorem resetSatisfiesEveryLaw : Obligations.ResetSatisfiesEveryLaw := by
  have held : HeldInReset State.reset := rfl
  have hwindow : ∀ d w, State.reset.window d w = Window.reset := State.window_reset
  have hforce : ∀ d w, (State.reset.window d w).inForce = false := fun d w => by rw [hwindow]; rfl
  have hentry : ∀ e x, State.reset.entry e ≠ some x := fun e x h => by simp at h
  refine ⟨fun p => ?_, fun d w => ?_, fun d w h => ?_, fun d v w _ h => ?_, HeldInReset.targetLaw held, fun _ => held,
    fun d w => ?_, ⟨fun x => ?_, by decide, by decide⟩, fun e x h => absurd h (hentry e x), ⟨fun p => ?_, fun e n x g h => ?_⟩,
    ⟨List.nodup_nil, fun e => ?_⟩, (lockLaw_iff _).2 fun k => ?_, NoticeUnit.Sound.reset, Timebase.Sound.reset, HeldInReset.atRest held⟩
  · cases p <;> exact PortOk.reset
  · rw [hwindow]
    exact ⟨fun h => (by cases h), fun h => (by cases h)⟩
  · rw [hforce] at h
    cases h
  · rw [hforce] at h
    cases h
  · rw [hwindow]
    simp [State.reset, Window.reset, chargedTo]
  · cases x <;> simp [State.reserve, State.reset, State.inUse, otherDir]
  · refine ⟨by rw [State.port_reset]; exact List.nodup_nil, fun e n h => ?_⟩
    rw [State.port_reset] at h
    cases h
  · exact absurd h (hentry e x)
  · exact ⟨fun h => (by cases h), fun ⟨x, hx, _⟩ => absurd hx (hentry e x)⟩
  · rw [State.lock_reset]
    exact .reset

end Sys2Proof.Machine
end

section
/-! Rest between events (R49, R104): the end of an event leaves nothing to settle, and an event that does not settle
changes nothing that the claims and the waiting heads depend on. -/

namespace Sys2Proof.Machine

open Sys2Proof.Safety

/-! ## Claims (R103) -/

/-- Claim `a` of port `p` stands in its lock, or in the done order with its entry. -/
def ClaimStands (p : Port) (s : State) : Claim → Prop
  | .outbox k => ∃ b, (s.lock k).outbox = some b ∧ b.port = p
  | .expired k => ∃ b, (s.lock k).expired.find? (fun b => decide (b.port = p)) = some b
  | .done e => e ∈ s.doneOrder ∧ ∃ x, s.entry e = some x ∧ x.state = .done ∧ originPort x.dir = p

theorem doneClaims_iff (p : Port) (s : State) (e : Fin 64) :
    doneClaims p s e = true ↔ ∃ x, s.entry e = some x ∧ x.state = .done ∧ originPort x.dir = p := by
  unfold doneClaims
  cases s.entry e <;> simp

theorem lockClaim_stands {p : Port} {s : State} {k : Fin 8} {a : Claim} (h : lockClaim p s k = some a) :
    ClaimStands p s a := by
  unfold lockClaim at h
  split at h
  · next ho =>
    cases h
    cases hb : (s.lock k).outbox with
    | none => simp [hb] at ho
    | some b => exact ⟨b, hb, by simpa [hb] using ho⟩
  · split at h
    · next he =>
      cases h
      exact Option.isSome_iff_exists.1 (by rwa [List.find?_isSome, ← List.any_eq_true])
    · cases h

theorem topClaim_stands {p : Port} {s : State} {a : Claim} (h : topClaim p s = some a) : ClaimStands p s a := by
  unfold topClaim at h
  split at h
  · next b hb =>
    cases h
    obtain ⟨k, -, hk⟩ := List.exists_of_findSome?_eq_some hb
    exact lockClaim_stands hk
  · obtain ⟨e, he, rfl⟩ := Option.map_eq_some_iff.1 h
    exact ⟨List.mem_of_find?_eq_some he, (doneClaims_iff p s e).1 (List.find?_some he)⟩

theorem nextClaim_stands {p : Port} {s : State} {a : Claim} (h : nextClaim p s = some a) : ClaimStands p s a := by
  rw [nextClaim, if_pos (slotFree_of_nextClaim h)] at h
  exact topClaim_stands h

/-- A claim that stands is placed in one slot of its port (R104). -/
theorem placeClaim_port_of_stands {p : Port} {s : State} {a : Claim} (h : ClaimStands p s a) :
    ∃ r, ∀ q, (placeClaim p a s).port q =
      if q = p then { s.port p with completions := (s.port p).completions ++ [r] } else s.port q := by
  cases a with
  | outbox k =>
    obtain ⟨b, hb, rfl⟩ := h
    exact ⟨b.answer, fun q => by simp [placeClaim, placeOutbox, hb, place, State.port_setPort]⟩
  | expired k =>
    obtain ⟨b, hb⟩ := h
    exact ⟨b.answer, fun q => by simp [placeClaim, placeExpired, hb, place, State.port_setPort]⟩
  | done e =>
    obtain ⟨-, x, hx, -, rfl⟩ := h
    exact ⟨x.completion, fun q => by simp [placeClaim, deliverDone, hx, place, State.port_setPort]⟩

/-! ## The slots run out before the fuel (R101) -/

/-- The free slots of both completion queues. -/
def freeSlots (s : State) : Nat := (16 - (s.port .u).completions.length) + (16 - (s.port .d).completions.length)

theorem freeSlots_le (s : State) : freeSlots s ≤ 32 := by
  unfold freeSlots
  omega

/-- Every placing uses a slot up. -/
theorem freeSlots_placeClaim {p : Port} {s : State} {a : Claim} (h : nextClaim p s = some a) :
    freeSlots (placeClaim p a s) < freeSlots s := by
  obtain ⟨r, hr⟩ := placeClaim_port_of_stands (nextClaim_stands h)
  obtain ⟨-, hfree⟩ := (slotFree_iff p s).1 (slotFree_of_nextClaim h)
  cases p <;> simp only [freeSlots, hr, reduceCtorEq, if_true, if_false, List.length_append, List.length_singleton] <;> omega

/-- With a placing for every free slot, no claim that could have one is left. -/
theorem giveOut_slotLaw (fuel : Nat) (s : State) (h : freeSlots s ≤ fuel) : SlotLaw (giveOut fuel s) := by
  induction fuel generalizing s with
  | zero =>
    have hnone : ∀ p, nextClaim p s = none := by
      intro p
      cases hc : nextClaim p s with
      | none => rfl
      | some a =>
        have := freeSlots_placeClaim hc
        omega
    exact hnone
  | succ fuel ih =>
    unfold giveOut
    split
    · next a ha => exact ih _ (by have := freeSlots_placeClaim ha; omega)
    · next hu =>
      split
      · next a ha => exact ih _ (by have := freeSlots_placeClaim ha; omega)
      · next hd => intro p; cases p; exact hu; exact hd

/-! ## Waiting heads (R48, R49) -/

theorem place_headWaits (p q : Port) (a : Completion) (s : State) :
    ((place p a s).port q).headWaits = (s.port q).headWaits := by
  by_cases h : q = p
  · subst h; simp
  · simp [h]

theorem headWaits_of_completion {s t : State} {p : Port} {r : Completion}
    (h : ∀ q, t.port q = if q = p then { s.port p with completions := (s.port p).completions ++ [r] } else s.port q)
    (q : Port) : (t.port q).headWaits = (s.port q).headWaits := by
  rw [h]
  split
  · next hq => rw [hq]
  · rfl

theorem FieldWrite.headWaits {s t : State} (h : FieldWrite s t) {q : Port} (hq : (t.port q).headWaits = true) :
    (s.port q).headWaits = true := by
  have hset : ∀ (p : Port) (x : PortState), x.headWaits = (s.port p).headWaits →
      ((s.setPort p x).port q).headWaits = true → (s.port q).headWaits = true := by
    intro p x hx ht
    rw [State.port_setPort] at ht
    split at ht
    · next hp => rw [hp, ← hx, ht]
    · exact ht
  cases h with
  | identity p n => exact hset p _ (by rfl) hq
  | tStall p v => exact hset p _ (by rfl) hq
  | reset => rw [softReset_port] at hq; cases hq
  | _ => simpa using hq

theorem handOff_headWaits {p q : Port} {r : Request} {s : State} (h : ((handOff p r s).1.port q).headWaits = true) :
    (s.port q).headWaits = true := by
  unfold handOff at h
  split at h
  · unfold lockRequest at h
    dsimp only at h
    split at h
    · split at h
      · rcases acquire_port_cases _ _ _ _ s with hs | ⟨_, hr⟩
        · rwa [hs] at h
        · rwa [headWaits_of_completion hr] at h
      · rwa [place_headWaits] at h
    · rwa [place_headWaits] at h
    · rwa [place_headWaits] at h
    · split at h
      · obtain ⟨_, hr⟩ := release_port _ _ _ _ _ s
        rwa [headWaits_of_completion hr] at h
      · rwa [place_headWaits] at h
  · dsimp only at h
    rw [place_headWaits] at h
    exact (manage_fieldWrite p r s).headWaits h

/-- A head that is taken does not wait any more, and no other head begins to. -/
theorem carryOut_headWaits {p q : Port} {r : Request} {d : Disposal} {s : State}
    (h : ((carryOut p r d s).1.port q).headWaits = true) : q ≠ p ∧ (s.port q).headWaits = true := by
  have htake : ∀ counted, ((take p counted s).port q).headWaits = true → q ≠ p ∧ (s.port q).headWaits = true := by
    intro counted ht
    rw [take, State.port_setPort] at ht
    split at ht
    · cases ht
    · next hq => exact ⟨hq, ht⟩
  cases d with
  | refuse st w =>
    refine htake false ?_
    unfold carryOut refuse at h
    dsimp only at h
    split at h
    · exact h
    · rwa [place_headWaits] at h
  | handOff => exact htake true (handOff_headWaits h)
  | forward w =>
    refine htake true ?_
    rcases forward_port_cases p r w (take p true s) with hs | ⟨ks, -, hks⟩
    · rwa [carryOut, hs] at h
    · rw [carryOut, hks] at h
      split at h
      · rwa [PortState.enqueue_eq] at h
      · exact h

/-! ## The end of an event -/

theorem atRest_congr {s t : State} (hn : ∀ p, nextClaim p t = nextClaim p s) (hw : ∀ p, waitingTake p t = waitingTake p s)
    (h : AtRest s) : AtRest t := ⟨fun p => (hn p).trans (h.1 p), fun p => (hw p).trans (h.2 p)⟩

theorem atRest_raise (x : Raise) {s : State} (h : AtRest s) : AtRest (raise x s) :=
  atRest_congr (fun p => nextClaim_congr p s _ (by simp) (by simp) (by simp) (by simp) (by simp))
    (fun p => by simp [waitingTake, takeable_raise]) h

theorem atRest_raiseAll (es : List Raise) {s : State} (h : AtRest s) : AtRest (raiseAll es s) :=
  raiseAll_induction (fun x _ ht => atRest_raise x ht) es s h

/-- A head that waits after the take of another waited before it. -/
theorem takeWaiting_headWaits {p q : Port} {es : List Raise} {s : State}
    (h : ((takeWaiting p es s).2.port q).headWaits = true) (hp : waitingTake p s = true) :
    q ≠ p ∧ (s.port q).headWaits = true := by
  simp only [takeWaiting, giveOut_headWaits, State.port_drawn] at h
  simp only [waitingTake, Bool.and_eq_true] at hp
  rw [← takeable_raiseAll (freeSplit (s.freeNext + 1) es).1 s p] at hp
  obtain ⟨r, rest, hr, -⟩ := (takeable_iff p _).1 hp.2
  rw [takeHead_of_cons p _ r rest hr] at h
  simpa using carryOut_headWaits h

theorem takeWaiting_slotLaw (p : Port) (es : List Raise) (s : State) : SlotLaw (takeWaiting p es s).2 :=
  giveOut_slotLaw 32 _ (freeSlots_le _)

theorem waitLaw_of_nextHead {s : State} (h : nextHead s = none) : WaitLaw s := by
  unfold nextHead at h
  intro p
  cases hu : waitingTake .u s <;> cases hd : waitingTake .d s <;> rw [hu, hd] at h
  · cases p; exact hu; exact hd
  · cases h
  · cases h
  · dsimp only at h
    split at h <;> cases h

/-- Two takes are enough: the second head is the other port's, and a head that a take exposes does not wait (R48). -/
theorem judgeWaiting_atRest (es : List Raise) {s : State} (h : SlotLaw s) : AtRest (judgeWaiting 2 es s) := by
  rw [judgeWaiting]
  split
  · next hnone => exact atRest_raiseAll es ⟨h, waitLaw_of_nextHead hnone⟩
  · next p hp =>
    rw [judgeWaiting]
    split
    · next hnone => exact atRest_raiseAll _ ⟨takeWaiting_slotLaw p es s, waitLaw_of_nextHead hnone⟩
    · next q hq =>
      have hwp := nextHead_some _ p hp
      have hwq := nextHead_some _ q hq
      have hqp : q ≠ p := (takeWaiting_headWaits (by simp only [waitingTake, Bool.and_eq_true] at hwq; exact hwq.1) hwp).1
      refine atRest_raiseAll _ ⟨takeWaiting_slotLaw q _ _, fun a => waitingTake_of_not_waiting a _ ?_⟩
      by_contra hwaits
      rw [Bool.not_eq_false] at hwaits
      obtain ⟨haq, ha⟩ := takeWaiting_headWaits hwaits hwq
      have hap := (takeWaiting_headWaits ha hwp).1
      cases a <;> cases p <;> cases q <;> simp_all

/-- The end of an event leaves nothing to settle (R49, R104). -/
theorem settleWith_atRest (es : List Raise) (s : State) : AtRest (settleWith es s) :=
  judgeWaiting_atRest es (giveOut_slotLaw 32 s (freeSlots_le s))

theorem settle_atRest (s : State) : AtRest (settle s) := settleWith_atRest [] s

theorem judgeHead_atRest {p : Port} {s : State} (h : (s.port p).ingress ≠ []) : AtRest (judgeHead p s) := by
  obtain ⟨r, rest, hr⟩ := List.exists_cons_of_ne_nil h
  cases ha : atHand p r (disposal p r s) s with
  | true => rw [judgeHead_of_take p s r rest hr ha]; exact settleWith_atRest _ _
  | false => rw [judgeHead_of_wait p s r rest hr ha]; exact settle_atRest _

/-! ## What claims and waiting heads depend on -/

/-- A port as slots, links and heads see it. -/
structure PortAlike (x y : PortState) : Prop where
  link : y.link = x.link
  identity : y.identity = x.identity
  completions : y.completions.length = x.completions.length
  egress : y.egress.length = x.egress.length
  headWaits : y.headWaits = x.headWaits
  head : x.headWaits = true → y.ingress.head? = x.ingress.head?

/-- `t` is `s` in everything that a claim or the judgement of a waiting head depends on. -/
structure Alike (s t : State) : Prop where
  port : ∀ q, PortAlike (s.port q) (t.port q)
  window : ∀ d w, t.window d w = s.window d w
  holder : ∀ k, (t.lock k).holder = (s.lock k).holder
  outbox : ∀ k, (t.lock k).outbox = (s.lock k).outbox
  expired : ∀ k, (t.lock k).expired = (s.lock k).expired
  entry : ∀ e, (t.entry e).map (fun x => (x.state, x.dir)) = (s.entry e).map (fun x => (x.state, x.dir))
  doneOrder : t.doneOrder = s.doneOrder
  reserve : ∀ x, t.reserve x = s.reserve x

/-- The entries in the order of their numbers. -/
theorem State.entries_toList (s : State) : s.entries.toList = allEntries.map s.entry := by
  refine List.ext_getElem (by simp [allEntries]) fun i h1 h2 => ?_
  simp [allEntries, State.entry]

/-- in_use of a direction counts the entries of that direction (R62). -/
theorem State.inUse_eq (s : State) (x : Dir) :
    s.inUse x = allEntries.countP (fun e => ((s.entry e).map (fun y => (y.state, y.dir))).any (fun a => decide (a.2 = x))) := by
  rw [State.inUse, State.entries_toList, List.countP_map]
  refine congrArg (List.countP · allEntries) (funext fun e => ?_)
  cases h : s.entry e <;> simp [h]

theorem PortAlike.refl (x : PortState) : PortAlike x x := ⟨rfl, rfl, rfl, rfl, rfl, fun _ => rfl⟩

theorem Alike.setPort {s : State} {p : Port} {x : PortState} (h : PortAlike (s.port p) x) : Alike s (s.setPort p x) where
  port q := by
    by_cases hq : q = p
    · subst hq; rwa [State.port_setPort_self]
    · rw [State.port_setPort_ne _ _ _ _ hq]; exact .refl _
  window _ _ := by simp
  holder _ := by simp
  outbox _ := by simp
  expired _ := by simp
  entry _ := by simp
  doneOrder := by simp
  reserve _ := by simp

section

variable {s t : State} (h : Alike s t)
include h

theorem Alike.topClaim (p : Port) : topClaim p t = topClaim p s := by
  have hlock : lockClaim p t = lockClaim p s := by
    funext k
    simp only [lockClaim, h.outbox, h.expired]
  have hdone : doneClaims p t = doneClaims p s := by
    funext e
    have he := h.entry e
    unfold doneClaims
    cases hs : s.entry e <;> cases ht : t.entry e <;> rw [hs, ht] at he <;> simp at he
    dsimp only
    rw [he.1, he.2]
  simp only [Machine.topClaim, hlock, hdone, h.doneOrder]

theorem Alike.slotFree (p : Port) : slotFree p t = slotFree p s := by
  simp only [Machine.slotFree, (h.port p).link, (h.port p).completions]

theorem Alike.nextClaim (p : Port) : nextClaim p t = nextClaim p s := by
  simp only [Machine.nextClaim, h.slotFree, h.topClaim]

theorem Alike.inUse (x : Dir) : t.inUse x = s.inUse x := by
  rw [State.inUse_eq, State.inUse_eq]
  simp only [h.entry]

theorem Alike.firstFree : t.firstFree = s.firstFree := by
  refine congrArg (List.find? · allEntries) (funext fun e => ?_)
  have he := congrArg Option.isNone (h.entry e)
  simpa using he

/-- A request is disposed of alike (R51). -/
theorem Alike.disposal (p : Port) (r : Request) : disposal p r t = disposal p r s := by
  have hlookup : ∀ d space a, t.lookup d space a = s.lookup d space a := by
    intro d space a
    simp only [State.lookup, h.window]
  have hbinding : ∀ w : Window, bindingPasses t w r.src p = bindingPasses s w r.src p := by
    intro w
    simp only [bindingPasses, h.holder, h.outbox]
  have hrefusal : ∀ w : Window, windowRefusal p r w t = windowRefusal p r w s := by
    intro w
    simp only [windowRefusal, hbinding, (h.port _).link]
  simp only [Machine.disposal, hlookup, hrefusal, (h.port p).identity, h.window]

/-- The resources of a disposal are at hand alike (R60). -/
theorem Alike.atHand (p : Port) (r : Request) (d : Disposal) : atHand p r d t = atHand p r d s := by
  simp only [Machine.atHand, slotForHead, h.slotFree, h.topClaim, h.window, (h.port _).egress, State.withinReservation,
    h.inUse, h.reserve, h.firstFree]

theorem Alike.waitingTake (p : Port) : waitingTake p t = waitingTake p s := by
  unfold Machine.waitingTake
  rw [(h.port p).headWaits]
  cases hw : (s.port p).headWaits with
  | false => rfl
  | true =>
    have hhead := (h.port p).head hw
    unfold takeable
    cases hs : (s.port p).ingress <;> cases ht : (t.port p).ingress <;> rw [hs, ht] at hhead <;> simp at hhead
    subst hhead
    simp only [h.disposal, h.atHand]

theorem Alike.atRest (hs : AtRest s) : AtRest t := atRest_congr h.nextClaim h.waitingTake hs

end

/-! ## Events that settle nothing -/

/-- What is neither port, window, lock, entry, done order nor reserve settles nothing. -/
theorem Alike.of_parts {s t : State} (hp : ∀ q, t.port q = s.port q) (hw : ∀ d w, t.window d w = s.window d w)
    (hk : ∀ k, t.lock k = s.lock k) (he : ∀ e, t.entry e = s.entry e) (hd : t.doneOrder = s.doneOrder)
    (hr : ∀ x, t.reserve x = s.reserve x) : Alike s t where
  port q := by rw [hp]; exact .refl _
  window := hw
  holder k := by rw [hk]
  outbox k := by rw [hk]
  expired k := by rw [hk]
  entry e := by rw [he]
  doneOrder := hd
  reserve := hr

@[simp] theorem State.entry_timebase (s : State) (b : Timebase) (e : Fin 64) :
    State.entry { s with timebase := b } e = s.entry e := rfl
@[simp] theorem State.reserve_timebase (s : State) (b : Timebase) (x : Dir) :
    State.reserve { s with timebase := b } x = s.reserve x := by cases x <;> rfl
@[simp] theorem State.reserve_countDown (s : State) (x : Dir) : s.countDown.reserve x = s.reserve x := by cases x <;> rfl
@[simp] theorem countDown_entry (s : State) (e : Fin 64) : s.countDown.entry e = (s.entry e).map Entry.tick := by
  simp [State.countDown, State.entry]

theorem alike_timebase (s : State) (b : Timebase) : Alike s { s with timebase := b } :=
  .of_parts (by simp) (by simp) (by simp) (by simp) rfl (by simp)

theorem alike_pending (s : State) (l : List Instr) : Alike s { s with pending := l } :=
  .of_parts (by simp) (by simp) (by simp) (by simp) rfl (by simp)

theorem alike_drawn (s : State) (n : Nat) : Alike s (s.drawn n) :=
  .of_parts (by simp) (by simp) (by simp) (by simp) rfl (by simp)

/-- Timers count down without an effect on claims and heads (R188). -/
theorem alike_countDown (s : State) : Alike s s.countDown where
  port q := by rw [countDown_port]; exact ⟨rfl, rfl, rfl, rfl, rfl, fun _ => rfl⟩
  window _ _ := by simp
  holder _ := by simp [Lock.tick]
  outbox _ := by simp [Lock.tick]
  expired _ := by simp [Lock.tick]
  entry e := by rw [countDown_entry]; cases s.entry e <;> rfl
  doneOrder := rfl
  reserve _ := by simp

theorem alike_countDiscard (p : Port) (s : State) : Alike s (countDiscard p s) :=
  .setPort ⟨rfl, rfl, rfl, rfl, rfl, fun _ => rfl⟩

theorem alike_countStray (p : Port) (s : State) : Alike s (countStray p s) :=
  .setPort ⟨rfl, rfl, rfl, rfl, rfl, fun _ => rfl⟩

/-- A request stored behind others is no head, and in an empty buffer it is one that does not wait (R48). -/
theorem storeRequest_atRest (p : Port) (r : Request) {s : State} (hl : PortLaw s) (h : AtRest s) :
    AtRest (storeRequest p r s) := by
  unfold storeRequest
  split
  · refine Alike.atRest (Alike.setPort ?_) h
    refine ⟨rfl, rfl, rfl, rfl, rfl, fun hw => ?_⟩
    obtain ⟨-, ⟨-, -, hhead⟩, -⟩ := hl p
    obtain ⟨a, rest, hr⟩ := List.exists_cons_of_ne_nil (hhead hw)
    simp [hr]
  · exact atRest_raise _ ((alike_countDiscard p s).atRest h)

theorem presentRequest_atRest (p : Port) (r : Request) {s : State} (hl : PortLaw s) (h : AtRest s) :
    AtRest (presentRequest p r s) := by
  unfold presentRequest
  split
  · exact h
  · split
    · next he => exact judgeHead_atRest (by simp [storeRequest, he])
    · next a rest he =>
      split
      · exact judgeHead_atRest (by simp [he])
      · exact storeRequest_atRest p r hl h

theorem arriveRequest_atRest (p : Port) (r : Request) {s : State} (hl : PortLaw s) (h : AtRest s) :
    AtRest (arriveRequest p r s) := by
  unfold arriveRequest
  split
  · exact h
  · exact storeRequest_atRest p r hl h

theorem arriveCompletion_atRest (p : Port) (a : CplPacket) {s : State} (h : AtRest s) : AtRest (arriveCompletion p a s) := by
  unfold arriveCompletion
  split
  · exact h
  · split
    · exact settleWith_atRest _ _
    · exact atRest_raise _ ((alike_countStray p s).atRest h)

theorem arriveDiscarded_atRest (p : Port) {s : State} (h : AtRest s) : AtRest (arriveDiscarded p s) := by
  unfold arriveDiscarded
  split
  · exact h
  · exact (alike_countDiscard p s).atRest h

theorem arriveCredit_atRest (p : Port) (i : Byte) {s : State} (h : AtRest s) : AtRest (arriveCredit p i s) := by
  unfold arriveCredit
  split
  · exact h
  · split
    · exact settle_atRest _
    · exact (alike_countDiscard p s).atRest h

theorem runDue_atRest (d : Due) {s : State} (h : AtRest s) : AtRest (runDue d s) := by
  unfold runDue
  split
  · cases d with
    | millisecond => exact (alike_timebase s _).atRest h
    | _ => exact settleWith_atRest _ _
  · exact h

theorem foldl_runDue_atRest (ds : List Due) {s : State} (h : AtRest s) : AtRest (ds.foldl (fun s d => runDue d s) s) := by
  induction ds generalizing s with
  | nil => exact h
  | cons d ds ih => exact ih (runDue_atRest d h)

theorem tick_atRest {s : State} (h : AtRest s) : AtRest (tick s) := by
  unfold tick
  dsimp only
  have hbegun : AtRest { s with timebase := s.timebase.tick.1 } := (alike_timebase s _).atRest h
  generalize ({ s with timebase := s.timebase.tick.1 } : State) = s1 at hbegun
  have hdraw : ∀ n : Nat, AtRest (if 1 < n then s1.drawn 1 else s1) := by
    intro n
    split
    · exact (alike_drawn _ 1).atRest hbegun
    · exact hbegun
  exact (alike_countDown _).atRest (foldl_runDue_atRest _ (hdraw _))

theorem refclkPeriod_atRest {s : State} (h : AtRest s) : AtRest (refclkPeriod s) := by
  unfold refclkPeriod
  split
  · split
    · exact tick_atRest ((alike_timebase s _).atRest h)
    · exact (alike_timebase s _).atRest h
  · exact h

/-- A command's meaning leaves the part at rest (R49, R104). -/
theorem exec_atRest (i : Instr) {s t : State} (hl : PortLaw s) (hreset : ResetLaw s) (h : AtRest s)
    (hexec : exec i s = .next t) : AtRest t := by
  have hrow : ∀ u, exec i s = .next u → AtRest u → AtRest t := by
    intro u hu hc
    rw [hu] at hexec
    cases hexec
    exact hc
  by_cases hreq : ∃ p r, requestOf i s = some (p, r)
  · obtain ⟨p, r, hr⟩ := hreq
    exact hrow _ (exec_requestOf i p r s hr) (presentRequest_atRest p r hl h)
  cases i with
  | powerUpReset => exact hrow _ rfl (HeldInReset.atRest rfl)
  | resetNDeassertion straps =>
    by_cases hn : s.resetN = true
    · exact hrow s (by simp [exec, execResetNDeassertion, hn]) h
    · refine hrow _ (by rw [exec, execResetNDeassertion, if_neg hn]) ?_
      have hheld := hreset (by simpa using hn)
      refine quiet_atRest _ ⟨fun p => ?_, ?_, ?_⟩
      · have hlink := HeldInReset.link hheld p
        cases p <;> exact (nextClaim_eq_none_iff _ _).2 fun hf => absurd hlink ((slotFree_iff _ _).1 hf).1
      · exact congrArg PortState.headWaits (HeldInReset.port hheld .u)
      · exact congrArg PortState.headWaits (HeldInReset.port hheld .d)
  | linkEstablishment p =>
    by_cases hn : s.resetN = true ∧ (s.port p).link = .down
    · exact hrow _ (by rw [exec, execLinkEstablishment, if_pos hn]) (settleWith_atRest _ _)
    · exact hrow s (by rw [exec, execLinkEstablishment, if_neg hn]) h
  | linkLoss p =>
    by_cases hn : (s.port p).link = .down
    · exact hrow s (by rw [exec, execLinkLoss, if_pos hn]) h
    · exact hrow _ (by simp only [exec, execLinkLoss, if_neg hn]; rfl) (settleWith_atRest _ _)
  | requestArrival p r => exact hrow _ rfl (arriveRequest_atRest p r hl h)
  | completionArrival p a => exact hrow _ rfl (arriveCompletion_atRest p a h)
  | noticeArrival p n => exact hrow _ rfl (arriveDiscarded_atRest p h)
  | creditArrival p j => exact hrow _ rfl (arriveCredit_atRest p j h)
  | undefinedPacketArrival p b =>
    cases hb : readPacket b with
    | request r => exact hrow _ (by simp only [exec, execUndefinedPacketArrival, hb]) (arriveRequest_atRest p r hl h)
    | completion a => exact hrow _ (by simp only [exec, execUndefinedPacketArrival, hb]) (arriveCompletion_atRest p a h)
    | credit j => exact hrow _ (by simp only [exec, execUndefinedPacketArrival, hb]) (arriveCredit_atRest p j h)
    | notice _ | undefinedKind =>
      exact hrow _ (by simp only [exec, execUndefinedPacketArrival, hb]) (arriveDiscarded_atRest p h)
  | crdDeparture p =>
    by_cases hc : (s.port p).choice = .credit
    · refine hrow _ (by rw [exec, execCrdDeparture, if_pos hc]) (Alike.atRest (Alike.setPort ?_) h)
      exact ⟨rfl, rfl, rfl, rfl, rfl, fun _ => rfl⟩
    · exact hrow s (by rw [exec, execCrdDeparture, if_neg hc]) h
  | completionDeparture p =>
    simp only [exec, execCompletionDeparture] at hexec
    split at hexec
    · split at hexec <;> cases hexec
      · exact h
      · exact settle_atRest _
    · cases hexec; exact h
  | egressDeparture p =>
    simp only [exec, execEgressDeparture] at hexec
    split at hexec
    · split at hexec
      · cases hexec; exact h
      · split at hexec <;> cases hexec <;> exact settle_atRest _
    · cases hexec; exact h
  | admissionJudgement p =>
    refine hrow _ rfl ?_
    by_cases he : (s.port p).ingress = []
    · rwa [judgeHead_of_empty p s he]
    · exact judgeHead_atRest he
  | noticePlacement =>
    simp only [exec, execNoticePlacement] at hexec
    split at hexec
    · split at hexec <;> cases hexec
      · exact settle_atRest _
      · exact h
    · cases hexec; exact h
  | doneEntryDelivery e =>
    simp only [exec, execDoneEntryDelivery, giveSlot] at hexec
    split at hexec <;> cases hexec
    · exact h
    · split
      · exact settle_atRest _
      · exact h
  | outboxGrantPlacing k =>
    simp only [exec, execOutboxGrantPlacing, giveSlot] at hexec
    split at hexec <;> cases hexec
    · exact h
    · split
      · exact settle_atRest _
      · exact h
  | expiryAnswerPlacing k p =>
    simp only [exec, execExpiryAnswerPlacing, giveSlot] at hexec
    cases hexec
    split
    · exact settle_atRest _
    · exact h
  | completionDeadlineExpiry e => exact hrow _ rfl (settleWith_atRest _ _)
  | quarantineExpiry e => exact hrow _ rfl (settle_atRest _)
  | stallTimerExpiry p => exact hrow _ rfl (settleWith_atRest _ _)
  | leaseExpiry k => exact hrow _ rfl (settleWith_atRest _ _)
  | waitExpiry k node p => exact hrow _ rfl (settle_atRest _)
  | millisecondCountIncrement =>
    simp only [exec, execMillisecondCountIncrement] at hexec
    split at hexec <;> cases hexec
    · exact (alike_timebase s _).atRest h
    · exact h
  | windowFieldWrite q t w f => cases f <;> exact absurd ⟨_, _, rfl⟩ hreq
  | _ => exact absurd ⟨_, _, rfl⟩ hreq

/-- Settles O58: every event that touches a slot, a claim or a waiting head ends by settling; any other leaves them alike. -/
theorem everyEventSettles : Obligations.EveryEventSettles := by
  intro s t hl hreset h hstep
  unfold step at hstep
  split at hstep
  · next i rest hp =>
    refine exec_atRest i (fun q => by simpa using hl q) (fun hn => ?_) ((alike_pending s rest).atRest h) hstep
    have hs := hreset hn
    rw [HeldInReset] at hs ⊢
    rw [hs]
  · cases hstep
    exact refclkPeriod_atRest h

end Sys2Proof.Machine
end

section
/-! The request table entry by entry (04): what results, losses, expiries and departures make of each entry. -/

namespace Sys2Proof.Machine

open Sys2Proof.Safety

/-! ## Results and deliveries -/

/-- Is the entry open with every segment resolved, so that it takes its result (R84)? -/
def Entry.due (x : Entry) : Bool := (decide (x.state = .pending) || decide (x.state = .issued)) && x.resolved

/-- An entry with the result that its segments form (R84). -/
def Entry.withResult (x : Entry) : Entry := { x with result := some x.formResult, deadline := none }

/-- What a delivery leaves of an entry (R87, R90 to R93). -/
def Entry.delivered (x : Entry) : Option Entry :=
  if x.timedOut then some { x with state := .quarantined, buffer := [], deadline := none, quarantine := x.tQuar } else none

/-- What an entry becomes when it takes its result, if that is due (R84, R90 to R92). -/
def Entry.settled (x : Entry) : Option Entry :=
  if x.due then
    if x.kind ≠ .absorbed ∧ x.orphaned = false then some { x.withResult with state := .done }
    else x.withResult.delivered
  else some x

theorem Entry.due_iff (x : Entry) :
    x.due = true ↔ (x.state = .pending ∨ x.state = .issued) ∧ x.resolved = true := by
  simp [Entry.due]

@[simp] theorem Entry.withResult_timedOut (x : Entry) : x.withResult.timedOut = x.timedOut := rfl
@[simp] theorem Entry.withResult_dir (x : Entry) : x.withResult.dir = x.dir := rfl
@[simp] theorem Entry.withResult_window (x : Entry) : x.withResult.window = x.window := rfl
@[simp] theorem Entry.withResult_segments (x : Entry) : x.withResult.segments = x.segments := rfl

theorem Entry.settled_of_not_due {x : Entry} (h : x.due = false) : x.settled = some x := by
  simp [Entry.settled, h]

theorem Entry.delivered_not_due {x y : Entry} (h : x.delivered = some y) : y.due = false := by
  unfold Entry.delivered at h
  split at h
  · cases h
    rfl
  · cases h

theorem Entry.delivered_some {x y : Entry} (h : x.delivered = some y) :
    y.dir = x.dir ∧ y.window = x.window ∧ y.segments = x.segments := by
  unfold Entry.delivered at h
  split at h
  · cases h; exact ⟨rfl, rfl, rfl⟩
  · cases h

/-- An entry keeps its direction, its window and its segments when it takes its result. -/
theorem Entry.settled_some {x y : Entry} (h : x.settled = some y) :
    y.dir = x.dir ∧ y.window = x.window ∧ y.segments = x.segments := by
  unfold Entry.settled at h
  split at h
  · split at h
    · cases h; exact ⟨rfl, rfl, rfl⟩
    · simpa using delivered_some h
  · cases h; exact ⟨rfl, rfl, rfl⟩

/-- An entry takes its result once. -/
theorem Entry.settled_bind (x : Entry) : x.settled.bind Entry.settled = x.settled := by
  have hstays : ∀ y, x.settled = some y → y.due = false := by
    intro y hy
    unfold Entry.settled at hy
    split at hy
    · split at hy
      · cases hy; rfl
      · exact delivered_not_due hy
    · next hd => cases hy; simpa using hd
  cases hx : x.settled with
  | none => rfl
  | some y => exact settled_of_not_due (hstays y hx)

theorem deliver_entry_eq (e i : Fin 64) (x : Entry) (s : State) :
    (deliver e x s).entry i = if i = e then x.delivered else s.entry i := deliver_entry e i x s

/-- The result of an ABSORBED entry that succeeded: it is delivered (R91). -/
theorem takeResult_absorbed_ok {e : Fin 64} {s : State} {x : Entry} (hx : s.entry e = some x) (h : x.due = true)
    (hk : x.kind = .absorbed) (hr : x.formResult = .ok) : takeResult e s = (deliver e x.withResult s, []) := by
  unfold takeResult
  simp only [hx, if_pos (x.due_iff.1 h), hk, hr]
  rw [Entry.withResult, hr, hk]

/-- The result of an ABSORBED entry that failed: applied to its window, and delivered (R40, R91). -/
theorem takeResult_absorbed_failed {e : Fin 64} {s : State} {x : Entry} {f : Failure} (hx : s.entry e = some x)
    (h : x.due = true) (hk : x.kind = .absorbed) (hr : x.formResult = .failed f) :
    takeResult e s = (deliver e x.withResult (applyFailure x f.status s).1, (applyFailure x f.status s).2) := by
  unfold takeResult
  simp only [hx, if_pos (x.due_iff.1 h), hk, hr]
  rw [Entry.withResult, hr, hk]
  rfl

@[simp] theorem applyFailure_entry (x : Entry) (st : Status) (s : State) (i : Fin 64) :
    (applyFailure x st s).1.entry i = s.entry i := by simp [applyFailure]

/-- Every way that a result is taken, as it bears on the entries. -/
theorem takeResult_cases (e : Fin 64) (s : State) :
    ((∀ x, s.entry e = some x → x.due = false) ∧ takeResult e s = (s, [])) ∨
    ∃ x, s.entry e = some x ∧ x.due = true ∧
      ((x.kind ≠ .absorbed ∧ x.orphaned = false ∧
          takeResult e s = ({ s.setEntry e (some { x.withResult with state := .done }) with
            doneOrder := s.doneOrder ++ [e] }, [])) ∨
        ((x.kind = .absorbed ∨ x.orphaned = true) ∧
          ((takeResult e s = (deliver e x.withResult s, []) ∧ (x.kind = .absorbed → x.formResult = .ok)) ∨
          ∃ f, x.kind = .absorbed ∧ x.formResult = .failed f ∧
            takeResult e s = (deliver e x.withResult (applyFailure x f.status s).1, (applyFailure x f.status s).2)))) := by
  cases hx : s.entry e with
  | none => exact .inl ⟨by simp, takeResult_of_not_due e s (by simp [hx])⟩
  | some x =>
    cases hd : x.due with
    | false =>
      refine .inl ⟨fun y hy => by cases hy; exact hd, takeResult_of_not_due e s fun y hy => ?_⟩
      rw [hx] at hy
      cases hy
      rw [← x.due_iff, hd]
      simp
    | true =>
      refine .inr ⟨x, rfl, hd, ?_⟩
      have hopen := x.due_iff.1 hd
      by_cases hk : x.kind = .absorbed
      · refine .inr ⟨.inl hk, ?_⟩
        cases hr : x.formResult with
        | ok => exact .inl ⟨takeResult_absorbed_ok hx hd hk hr, fun _ => rfl⟩
        | failed f => exact .inr ⟨f, hk, rfl, takeResult_absorbed_failed hx hd hk hr⟩
      · cases ho : x.orphaned with
        | true => exact .inr ⟨.inr rfl, .inl ⟨takeResult_orphaned e s x hx hopen hk ho, fun h => absurd h hk⟩⟩
        | false => exact .inl ⟨hk, rfl, takeResult_done e s x hx hopen hk ho⟩

@[simp] theorem State.entry_doneOrder (s : State) (l : List (Fin 64)) (i : Fin 64) :
    State.entry { s with doneOrder := l } i = s.entry i := rfl

/-- Taking a result changes its own entry only. -/
theorem takeResult_entry (e i : Fin 64) (s : State) :
    (takeResult e s).1.entry i = if i = e then (s.entry e).bind Entry.settled else s.entry i := by
  rcases takeResult_cases e s with ⟨hnot, hr⟩ | ⟨x, hx, hd, h⟩
  · rw [hr]
    split
    · next hi =>
      subst hi
      cases hx : s.entry i with
      | none => rfl
      | some x => exact (Entry.settled_of_not_due (hnot x hx)).symm
    · rfl
  · rcases h with ⟨hk, ho, hr⟩ | ⟨hk, ⟨hr, -⟩ | ⟨f, -, -, hr⟩⟩
    · rw [hr, State.entry_doneOrder, State.entry_setEntry, hx, Option.bind_some, Entry.settled, if_pos hd,
        if_pos (show x.kind ≠ .absorbed ∧ x.orphaned = false from ⟨hk, ho⟩)]
    all_goals
      have hdel : x.settled = x.withResult.delivered := by
        rw [Entry.settled, if_pos hd, if_neg]
        rcases hk with hk | hk <;> simp [hk]
      simp [hr, deliver_entry_eq, hx, hdel]

/-- Results taken one after the other change the entries listed, each as by itself. -/
theorem takeResults_entry (es : List (Fin 64)) (s : State) (i : Fin 64) :
    (takeResults es s).1.entry i = if i ∈ es then (s.entry i).bind Entry.settled else s.entry i := by
  rw [takeResults_fst]
  induction es generalizing s with
  | nil => simp
  | cons e es ih =>
    rw [List.foldl_cons, ih, takeResult_entry]
    by_cases hi : i = e
    · subst hi
      have honce : ((s.entry i).bind Entry.settled).bind Entry.settled = (s.entry i).bind Entry.settled := by
        cases s.entry i with
        | none => rfl
        | some x => exact x.settled_bind
      simp [honce]
    · simp [hi]

/-- A function mapped over listed entries. -/
theorem mapEntries_entry {es : List (Fin 64)} (hn : es.Nodup) (f : Entry → Entry) (s : State) (i : Fin 64) :
    (mapEntries es f s).entry i = if i ∈ es then (s.entry i).map f else s.entry i := by
  induction es generalizing s with
  | nil => rfl
  | cons e es ih =>
    obtain ⟨he, hes⟩ := List.nodup_cons.1 hn
    rw [mapEntries, List.foldl_cons, ← mapEntries, ih hes, State.entry_setEntry]
    by_cases hi : i = e
    · subst hi; simp [he]
    · simp [hi]

theorem foldl_setEntry_none_entry (es : List (Fin 64)) (s : State) (i : Fin 64) :
    (es.foldl (fun s e => s.setEntry e none) s).entry i = if i ∈ es then none else s.entry i := by
  induction es generalizing s with
  | nil => rfl
  | cons e es ih =>
    rw [List.foldl_cons, ih, State.entry_setEntry]
    by_cases hi : i = e <;> simp [hi]

/-! ## Entries selected -/

theorem mem_entriesWith {s : State} {f : Entry → Bool} {e : Fin 64} :
    e ∈ s.entriesWith f ↔ ∃ x, s.entry e = some x ∧ f x = true := by
  simp only [State.entriesWith, List.mem_filter, allEntries, List.mem_finRange, true_and]
  cases s.entry e <;> simp

theorem entriesWith_nodup (s : State) (f : Entry → Bool) : (s.entriesWith f).Nodup :=
  (List.nodup_finRange 64).filter _

theorem eraseDups_nodup {α : Type} [BEq α] [LawfulBEq α] (l : List α) : l.eraseDups.Nodup := by
  induction hn : l.length using Nat.strong_induction_on generalizing l with
  | _ n ih =>
    cases l with
    | nil => simp
    | cons a l =>
      rw [List.eraseDups_cons, List.nodup_cons]
      refine ⟨fun hm => ?_, ih _ ?_ _ rfl⟩
      · simp at hm
      · have := List.length_filter_le (fun b => !b == a) l
        simp only [List.length_cons] at hn
        omega

theorem mem_entriesOf {ks : List EgressPacket} {e : Fin 64} :
    e ∈ entriesOf ks ↔ ∃ n q, EgressPacket.segment e n q ∈ ks := by
  simp only [entriesOf, List.mem_eraseDups, List.mem_filterMap]
  constructor
  · rintro ⟨k, hk, he⟩
    cases k with
    | segment i n q => cases he; exact ⟨n, q, hk⟩
    | _ => cases he
  · rintro ⟨n, q, hk⟩
    exact ⟨_, hk, rfl⟩

theorem entriesOf_nodup (ks : List EgressPacket) : (entriesOf ks).Nodup := eraseDups_nodup _

/-! ## A stall (R94) -/

/-- The PENDING entries with a segment among the packets flushed: those that fail their unsent segments. -/
def stalledOnes (ks : List EgressPacket) (s : State) : List (Fin 64) :=
  (entriesOf ks).filter (fun e => match s.entry e with
    | some x => decide (x.state = .pending)
    | none => false)

/-- The order in which they take their results (R90, R127). -/
def stalledOrder (ks : List EgressPacket) (s : State) : List (Fin 64) :=
  allEntries.filter (fun e => (stalledOnes ks s).contains e && s.answered e)
    ++ (stalledOnes ks s).filter (fun e => !s.answered e)

theorem stallEntries_eq (ks : List EgressPacket) (s : State) :
    stallEntries ks s = takeResults (stalledOrder ks s) (mapEntries (stalledOnes ks s) stallEntry s) := rfl

theorem mem_stalledOnes {ks : List EgressPacket} {s : State} {e : Fin 64} :
    e ∈ stalledOnes ks s ↔ e ∈ entriesOf ks ∧ ∃ x, s.entry e = some x ∧ x.state = .pending := by
  simp only [stalledOnes, List.mem_filter]
  cases s.entry e <;> simp

theorem stalledOnes_nodup (ks : List EgressPacket) (s : State) : (stalledOnes ks s).Nodup :=
  (entriesOf_nodup ks).filter _

theorem mem_stalledOrder {ks : List EgressPacket} {s : State} {e : Fin 64} :
    e ∈ stalledOrder ks s ↔ e ∈ stalledOnes ks s := by
  simp only [stalledOrder, List.mem_append, List.mem_filter, allEntries, List.mem_finRange, true_and, Bool.and_eq_true,
    List.contains_iff_mem, Bool.not_eq_true']
  cases s.answered e <;> simp

theorem stallEntries_entry (ks : List EgressPacket) (s : State) (i : Fin 64) :
    (stallEntries ks s).1.entry i =
      if i ∈ stalledOnes ks s then (s.entry i).bind (fun x => (stallEntry x).settled) else s.entry i := by
  rw [stallEntries_eq, takeResults_entry, mapEntries_entry (stalledOnes_nodup ks s)]
  simp only [mem_stalledOrder]
  split
  · rw [Option.bind_map]; rfl
  · rfl

@[simp] theorem countFlushed_entry (ns : List StampedNotice) (s : State) (e : Fin 64) :
    (countFlushed ns s).entry e = s.entry e := rfl

theorem stalledOnes_congr {ks : List EgressPacket} {s t : State} (h : ∀ e, t.entry e = s.entry e) :
    stalledOnes ks t = stalledOnes ks s := by
  simp only [stalledOnes, h]

/-- A stall timer's expiry, entry by entry (R94). -/
theorem expireStall_entry (p : Port) (s : State) (i : Fin 64) :
    (expireStall p s).1.entry i =
      if (s.port p).stallTimer ≠ none ∧ i ∈ stalledOnes (s.port p).egress s then
        (s.entry i).bind (fun x => (stallEntry x).settled)
      else s.entry i := by
  unfold expireStall
  cases ht : (s.port p).stallTimer with
  | none => simp
  | some n =>
    have hones : ∀ ks ns x, stalledOnes ks (countFlushed ns (s.setPort p x)) = stalledOnes ks s :=
      fun _ _ _ => stalledOnes_congr fun _ => by simp
    simp [stallEntries_entry, hones]

/-! ## A link loss (R95, R96) -/

/-- What a link loss of its forward port makes of an entry (R95). -/
def Entry.forwardLost (x : Entry) : Option Entry :=
  match x.state with
  | .pending | .issued => (linkDownOpen x).settled
  | .done => some (linkDownDone x)
  | .quarantined => none

theorem Entry.forwardLost_some {x y : Entry} (h : x.forwardLost = some y) :
    y.dir = x.dir ∧ y.window = x.window ∧ x.state ≠ .quarantined := by
  unfold Entry.forwardLost at h
  split at h
  · next hs =>
    obtain ⟨hd, hw, -⟩ := settled_some h
    exact ⟨hd, hw, by simp [hs]⟩
  · next hs =>
    obtain ⟨hd, hw, -⟩ := settled_some h
    exact ⟨hd, hw, by simp [hs]⟩
  · next hs => cases h; exact ⟨rfl, rfl, by simp [hs]⟩
  · cases h

/-- What a link loss of its origin port makes of an entry (R96). -/
def Entry.originLost (x : Entry) : Option Entry :=
  match x.state with
  | .pending | .issued => some { x with orphaned := true }
  | .done => ({ x with orphaned := true } : Entry).delivered
  | .quarantined => some x

@[simp] theorem Entry.mapStates_state (x : Entry) (f : SegState → SegState) : (x.mapStates f).state = x.state := rfl

/-- Entries of one state forwarded at port `p`. -/
def lostOnes (p : Port) (s : State) (f : Entry → Bool) : List (Fin 64) :=
  s.entriesWith (fun x => decide (forwardPort x.dir = p) && f x)

/-- Is the entry PENDING or ISSUED? -/
def Entry.isOpen (x : Entry) : Bool := decide (x.state = .pending) || decide (x.state = .issued)

/-- The order in which the open entries of a lost forward port take their results (R90, R161). -/
def lostOrder (n : Nat) (p : Port) (s : State) : List (Fin 64) :=
  (lostOnes p s Entry.isOpen).filter s.answered ++
    freeArrange n ((lostOnes p s Entry.isOpen).filter (fun e => !s.answered e))

/-- The entries of a lost forward port before the open ones take their results. -/
def lostMarked (p : Port) (s : State) : State :=
  (lostOnes p s (fun x => decide (x.state = .quarantined))).foldl (fun s e => s.setEntry e none)
    (mapEntries (lostOnes p s (fun x => decide (x.state = .done))) linkDownDone
      (mapEntries (lostOnes p s Entry.isOpen) linkDownOpen s))

theorem forwardLinkLoss_eq (n : Nat) (p : Port) (s : State) :
    forwardLinkLoss n p s = takeResults (lostOrder n p s) (lostMarked p s) := rfl

theorem lostOnes_nodup (p : Port) (s : State) (f : Entry → Bool) : (lostOnes p s f).Nodup := entriesWith_nodup s _

theorem mem_lostOnes {p : Port} {s : State} {f : Entry → Bool} {e : Fin 64} :
    e ∈ lostOnes p s f ↔ ∃ x, s.entry e = some x ∧ forwardPort x.dir = p ∧ f x = true := by
  simp [lostOnes, mem_entriesWith]

theorem mem_lostOrder {n : Nat} {p : Port} {s : State} {e : Fin 64} :
    e ∈ lostOrder n p s ↔ e ∈ lostOnes p s Entry.isOpen := by
  simp only [lostOrder, List.mem_append, mem_freeArrange, List.mem_filter, Bool.not_eq_true']
  cases s.answered e <;> simp

/-- What a link loss of its forward port marks in an entry, before open ones take their results (R95). -/
def Entry.lossMarked (x : Entry) : Option Entry :=
  match x.state with
  | .pending | .issued => some (linkDownOpen x)
  | .done => some (linkDownDone x)
  | .quarantined => none

theorem lostMarked_entry (p : Port) (s : State) (i : Fin 64) :
    (lostMarked p s).entry i =
      (s.entry i).bind (fun x => if forwardPort x.dir = p then x.lossMarked else some x) := by
  rw [lostMarked, foldl_setEntry_none_entry, mapEntries_entry (lostOnes_nodup _ _ _),
    mapEntries_entry (lostOnes_nodup _ _ _)]
  simp only [mem_lostOnes]
  cases hx : s.entry i with
  | none => simp
  | some x =>
    by_cases hp : forwardPort x.dir = p
    · cases hs : x.state <;> simp [hp, hs, Entry.isOpen, Entry.lossMarked]
    · simp [hp]

theorem forwardLinkLoss_entry (n : Nat) (p : Port) (s : State) (i : Fin 64) :
    (forwardLinkLoss n p s).1.entry i =
      (s.entry i).bind (fun x => if forwardPort x.dir = p then x.forwardLost else some x) := by
  rw [forwardLinkLoss_eq, takeResults_entry, lostMarked_entry]
  simp only [mem_lostOrder, mem_lostOnes]
  cases hx : s.entry i with
  | none => simp
  | some x =>
    by_cases hp : forwardPort x.dir = p
    · cases hs : x.state <;> simp [hp, hs, Entry.isOpen, Entry.forwardLost, Entry.lossMarked]
    · simp [hp]

/-- The entries of a list delivered without an answer (R92). -/
def deliverOrphans (es : List (Fin 64)) (s : State) : State :=
  es.foldl (fun s e => match s.entry e with
    | some x => deliver e { x with orphaned := true } s
    | none => s) s

theorem deliverOrphans_entry {es : List (Fin 64)} (hn : es.Nodup) (s : State) (i : Fin 64) :
    (deliverOrphans es s).entry i =
      if i ∈ es then (s.entry i).bind (fun x => ({ x with orphaned := true } : Entry).delivered) else s.entry i := by
  induction es generalizing s with
  | nil => rfl
  | cons e es ih =>
    obtain ⟨he, hes⟩ := List.nodup_cons.1 hn
    rw [deliverOrphans, List.foldl_cons, ← deliverOrphans, ih hes]
    have hother : i ≠ e → (match s.entry e with
        | some x => deliver e { x with orphaned := true } s
        | none => s).entry i = s.entry i := by
      intro hi
      split
      · simp [deliver_entry_eq, hi]
      · rfl
    by_cases hi : i = e
    · subst hi
      rw [if_neg he, if_pos (by simp)]
      cases hx : s.entry i with
      | none => simpa using hx
      | some x => simp [deliver_entry_eq]
    · simp [hi, hother hi]

/-- Entries of one state that arrived at port `p`. -/
def arrivedOnes (p : Port) (s : State) (f : Entry → Bool) : List (Fin 64) :=
  s.entriesWith (fun x => decide (originPort x.dir = p) && f x)

theorem originLinkLoss_eq (p : Port) (s : State) :
    originLinkLoss p s = deliverOrphans (arrivedOnes p s (fun x => decide (x.state = .done)))
      (mapEntries (arrivedOnes p s Entry.isOpen) (fun x => { x with orphaned := true }) s) := rfl

theorem arrivedOnes_nodup (p : Port) (s : State) (f : Entry → Bool) : (arrivedOnes p s f).Nodup := entriesWith_nodup s _

theorem mem_arrivedOnes {p : Port} {s : State} {f : Entry → Bool} {e : Fin 64} :
    e ∈ arrivedOnes p s f ↔ ∃ x, s.entry e = some x ∧ originPort x.dir = p ∧ f x = true := by
  simp [arrivedOnes, mem_entriesWith]

theorem originLinkLoss_entry (p : Port) (s : State) (i : Fin 64) :
    (originLinkLoss p s).entry i =
      (s.entry i).bind (fun x => if originPort x.dir = p then x.originLost else some x) := by
  rw [originLinkLoss_eq, deliverOrphans_entry (arrivedOnes_nodup _ _ _), mapEntries_entry (arrivedOnes_nodup _ _ _)]
  simp only [mem_arrivedOnes]
  cases hx : s.entry i with
  | none => simp
  | some x =>
    by_cases hp : originPort x.dir = p
    · cases hs : x.state <;> simp [hp, hs, Entry.isOpen, Entry.originLost]
    · simp [hp]

@[simp] theorem locksLinkLoss_entry (p : Port) (s : State) (i : Fin 64) : (locksLinkLoss p s).entry i = s.entry i := rfl

/-- A link loss of port `p`, entry by entry: every entry has one of its ports there (R21, R95, R96). -/
theorem linkLossState_entry (p : Port) (s : State) (i : Fin 64) :
    (linkLossState p s).entry i =
      (s.entry i).bind (fun x => if forwardPort x.dir = p then x.forwardLost else x.originLost) := by
  rw [linkLossState, State.entry_drawn, locksLinkLoss_entry, originLinkLoss_entry, forwardLinkLoss_entry,
    countFlushed_entry, State.entry_setPort]
  cases s.entry i with
  | none => rfl
  | some x =>
    have hports : forwardPort x.dir = p ↔ originPort x.dir ≠ p := by cases x.dir <;> cases p <;> decide
    by_cases hp : forwardPort x.dir = p
    · simp only [Option.bind_some, if_pos hp]
      cases hl : x.forwardLost with
      | none => rfl
      | some y =>
        rw [Option.bind_some, (Entry.forwardLost_some hl).1, if_neg (hports.1 hp)]
    · have ho : originPort x.dir = p := by
        by_contra ho
        exact hp (hports.2 ho)
      simp [hp, ho]

/-! ## Expiries, departures and forwards -/

/-- An entry whose open segments time out (R86); tQUAR is `tQuar`. -/
def Entry.struck (x : Entry) (tQuar : Option Nat) : Entry := { x.mapStates (failOpen .timeout) with tQuar := tQuar }

/-- The tQUAR of a deadline that expires (R87). -/
def quarTicks (s : State) (x : Entry) (d : Deadline) : Option Nat :=
  match (s.tcto x.dir).ticks with
  | some t => some t
  | none => d.setting.ticks

/-- The state in which entry `e` takes its result after its timeout (R86, R121). -/
def struckState (e : Fin 64) (x : Entry) (d : Deadline) (s : State) : State :=
  (s.setPort (forwardPort x.dir) ((s.port (forwardPort x.dir)).withdraw e)).setEntry e (some (x.struck (quarTicks s x d)))

theorem expireDeadline_eq {e : Fin 64} {s : State} {x : Entry} {d : Deadline} (hx : s.entry e = some x)
    (hd : x.deadline = some d) :
    expireDeadline e s =
      (if (takeResult e (struckState e x d s)).2 = [] then (takeResult e (struckState e x d s)).1
        else (takeResult e (struckState e x d s)).1.drawn 1,
        freeMerge s.freeNext [timeoutRaise x] (takeResult e (struckState e x d s)).2) := by
  unfold expireDeadline
  simp only [hx, hd]
  rfl

/-- Without a deadline there is nothing to expire. -/
theorem expireDeadline_of_none {e : Fin 64} {s : State} (h : ∀ x, s.entry e = some x → x.deadline = none) :
    expireDeadline e s = (s, []) := by
  unfold expireDeadline
  split
  · rfl
  · next x hx => rw [h x hx]

theorem expireDeadline_entry {e : Fin 64} {s : State} {x : Entry} {d : Deadline} (hx : s.entry e = some x)
    (hd : x.deadline = some d) (i : Fin 64) :
    (expireDeadline e s).1.entry i = if i = e then (x.struck (quarTicks s x d)).settled else s.entry i := by
  have hdrawn : ∀ (b : State) (l : List Raise), (if l = [] then b else b.drawn 1).entry i = b.entry i := by
    intro b l
    split <;> rfl
  rw [expireDeadline_eq hx hd, hdrawn, takeResult_entry]
  by_cases hi : i = e
  · simp [hi, struckState]
  · simp [hi, struckState, State.entry_setEntry]

theorem expireQuarantine_entry (e i : Fin 64) (s : State) :
    (expireQuarantine e s).entry i = s.entry i ∨
      i = e ∧ (∃ x, s.entry e = some x ∧ x.state = .quarantined) ∧ (expireQuarantine e s).entry i = none := by
  unfold expireQuarantine
  split
  · exact .inl rfl
  · next x hx =>
    split
    · next hq =>
      rw [State.entry_setEntry]
      by_cases hi : i = e
      · exact .inr ⟨hi, ⟨x, hx, hq.1⟩, by simp [hi]⟩
      · exact .inl (by simp [hi])
    · exact .inl rfl

/-- A segment's departure is one of a NOT_SENT segment, or changes nothing (R79). -/
theorem segmentSent_eq (e : Fin 64) (k : Nat) (s : State) :
    segmentSent e k s = s ∨ ∃ x g, s.entry e = some x ∧ x.segments[k]? = some g ∧ g.state = .notSent ∧
      segmentSent e k s = s.setEntry e (some (x.departed k (s.tcto x.dir))) := by
  unfold segmentSent
  split
  · exact .inl rfl
  · next x hx =>
    split
    · exact .inl rfl
    · next g hg =>
      split
      · next hn => exact .inr ⟨x, g, hx, hg, hn, rfl⟩
      · exact .inl rfl

@[simp] theorem enqueue_entry (p : Port) (ks : List EgressPacket) (s : State) (i : Fin 64) :
    (enqueue p ks s).entry i = s.entry i := by simp [Machine.enqueue]

theorem firstFree_some {s : State} {e : Fin 64} (h : s.firstFree = some e) : s.entry e = none := by
  simpa using List.find?_some h

/-- A forward puts a new entry in a FREE place, or leaves the entries as they are (R64 to R66). -/
theorem forward_entry_cases (p : Port) (r : Request) (w : Fin 16) (s : State) :
    (∀ i, (forward p r w s).entry i = s.entry i) ∨
    ∃ e, s.firstFree = some e ∧ passes (s.window (dirOf p) w) r = false ∧ ∀ i, (forward p r w s).entry i =
      if i = e then some (newEntry p (entryKindOf r.kind) r w (s.window (dirOf p) w)
        ((s.window (dirOf p) w).translate r.address)) else s.entry i := by
  simp only [forward]
  split
  · exact .inl fun i => by simp
  · next hp =>
    split
    · exact .inl fun _ => rfl
    · next e he => exact .inr ⟨e, he, by simpa using hp, fun i => by simp [State.entry_setEntry]⟩

@[simp] theorem placeOutbox_entry (k : Fin 8) (s : State) (i : Fin 64) : (placeOutbox k s).entry i = s.entry i := by
  unfold placeOutbox
  split <;> simp

@[simp] theorem placeExpired_entry (k : Fin 8) (p : Port) (s : State) (i : Fin 64) :
    (placeExpired k p s).entry i = s.entry i := by
  unfold placeExpired
  split <;> simp

@[simp] theorem acquire_entry (k : Fin 8) (node : Node) (p : Port) (tag : Tag) (s : State) (i : Fin 64) :
    (acquire k node p tag s).entry i = s.entry i := by
  simp only [acquire]
  split
  · simp
  · split
    · simp
    · split
      · simp
      · split <;> simp

@[simp] theorem release_entry (k : Fin 8) (node : Node) (p : Port) (tag : Tag) (g : Word32) (s : State) (i : Fin 64) :
    (release k node p tag g s).entry i = s.entry i := by
  simp only [release]
  split <;> simp

@[simp] theorem breakHold_entry (k : Fin 8) (s : State) (i : Fin 64) : (breakHold k s).entry i = s.entry i := by
  simp only [breakHold]
  split <;> simp

@[simp] theorem expireLease_entry (k : Fin 8) (s : State) (i : Fin 64) : (expireLease k s).1.entry i = s.entry i := by
  simp only [expireLease]
  split <;> simp

@[simp] theorem expireWait_entry (k : Fin 8) (node : Node) (p : Port) (s : State) (i : Fin 64) :
    (expireWait k node p s).entry i = s.entry i := by
  simp only [expireWait]
  split <;> simp

@[simp] theorem softReset_entry (s : State) (i : Fin 64) : (softReset s).entry i = none := by
  simp [softReset, State.entry]

end Sys2Proof.Machine
end

section
/-! What an entry's state says of it (Table 4-4), and queued packets against unsent segments (R78). -/

namespace Sys2Proof.Machine

open Sys2Proof.Safety

variable {c : Option Instr}

/-! ## Segments under a change of their states -/

/-- The law of one entry (Table 4-4, R79, R84, R87). -/
def LawfulEntry (x : Entry) : Prop :=
  (x.state = .pending → x.unsent = true) ∧
  (x.state = .issued → x.unsent = false ∧ x.resolved = false) ∧
  (x.state = .pending ∨ x.state = .issued → x.timedOut = false ∧ x.result = none) ∧
  (x.state = .done ∨ x.state = .quarantined → x.resolved = true ∧ x.result.isSome = true ∧ x.deadline = none) ∧
  (x.state = .quarantined → x.timedOut = true)

theorem entryLaw_iff (s : State) : EntryLaw s ↔ ∀ e x, s.entry e = some x → LawfulEntry x := Iff.rfl

theorem LawfulEntry.of_pending {x : Entry} (hs : x.state = .pending) (hu : x.unsent = true) (ht : x.timedOut = false)
    (hr : x.result = none) : LawfulEntry x := by simp [LawfulEntry, hs, hu, ht, hr]

theorem LawfulEntry.of_issued {x : Entry} (hs : x.state = .issued) (hu : x.unsent = false) (hw : x.resolved = false)
    (ht : x.timedOut = false) (hr : x.result = none) : LawfulEntry x := by simp [LawfulEntry, hs, hu, hw, ht, hr]

theorem LawfulEntry.of_done {x : Entry} (hs : x.state = .done) (hw : x.resolved = true) (hr : x.result.isSome = true)
    (hd : x.deadline = none) : LawfulEntry x := by simp [LawfulEntry, hs, hw, hr, hd]

theorem LawfulEntry.of_quarantined {x : Entry} (hs : x.state = .quarantined) (hw : x.resolved = true)
    (hr : x.result.isSome = true) (hd : x.deadline = none) (ht : x.timedOut = true) : LawfulEntry x := by
  simp [LawfulEntry, hs, hw, hr, hd, ht]

theorem Entry.resolved_iff (x : Entry) : x.resolved = true ↔ ∀ g ∈ x.segments, g.state.resolved = true := by
  simp [Entry.resolved]

theorem Entry.unsent_iff (x : Entry) : x.unsent = true ↔ ∃ g ∈ x.segments, g.state = .notSent := by
  simp [Entry.unsent]

theorem Entry.timedOut_iff (x : Entry) : x.timedOut = true ↔ ∃ g ∈ x.segments, g.state = .failed .timeout := by
  simp [Entry.timedOut]

theorem Entry.unsent_eq_false_iff (x : Entry) : x.unsent = false ↔ ∀ g ∈ x.segments, g.state ≠ .notSent := by
  rw [← Bool.not_eq_true, x.unsent_iff]
  simp

theorem Entry.timedOut_eq_false_iff (x : Entry) : x.timedOut = false ↔ ∀ g ∈ x.segments, g.state ≠ .failed .timeout := by
  rw [← Bool.not_eq_true, x.timedOut_iff]
  simp

/-- A resolved entry has no unsent segment. -/
theorem Entry.unsent_of_resolved {x : Entry} (h : x.resolved = true) : x.unsent = false := by
  refine x.unsent_eq_false_iff.2 fun g hg hn => ?_
  have := x.resolved_iff.1 h g hg
  rw [hn] at this
  cases this

theorem Entry.mem_mapStates {x : Entry} {f : SegState → SegState} {g : Segment} :
    g ∈ (x.mapStates f).segments ↔ ∃ a ∈ x.segments, { a with state := f a.state } = g := by
  simp [Entry.mapStates]

/-- A property of every segment after the states are changed. -/
theorem Entry.forall_mapStates {x : Entry} {f : SegState → SegState} {P : SegState → Prop} :
    (∀ g ∈ (x.mapStates f).segments, P g.state) ↔ ∀ g ∈ x.segments, P (f g.state) := by
  simp [Entry.mapStates]

theorem failOpen_resolved (f : Failure) (a : SegState) : (failOpen f a).resolved = true := by cases a <;> rfl

theorem Entry.failOpen_resolved (x : Entry) (f : Failure) : (x.mapStates (failOpen f)).resolved = true :=
  (Entry.resolved_iff _).2 (forall_mapStates (P := fun a => a.resolved = true).2 fun g _ => Machine.failOpen_resolved f g.state)

theorem failUnsent_ne_notSent (f : Failure) (a : SegState) : failUnsent f a ≠ .notSent := by cases a <;> simp [failUnsent]

theorem Entry.failUnsent_unsent (x : Entry) (f : Failure) : (x.mapStates (failUnsent f)).unsent = false :=
  (Entry.unsent_eq_false_iff _).2
    (forall_mapStates (P := fun a => a ≠ .notSent).2 fun g _ => failUnsent_ne_notSent f g.state)

/-! ## The law of one entry -/

/-- An entry that the law holds of is not due: only an event makes one resolved. -/
theorem LawfulEntry.not_due {x : Entry} (h : LawfulEntry x) : x.due = false := by
  obtain ⟨hp, hi, -⟩ := h
  by_contra hd
  rw [Bool.not_eq_false, x.due_iff] at hd
  obtain ⟨hs | hs, hr⟩ := hd
  · rw [Entry.unsent_of_resolved hr] at hp
    cases hp hs
  · rw [hr] at hi
    cases (hi hs).2

/-- A delivered entry is QUARANTINED by a TIMEOUT mark (R87). -/
theorem LawfulEntry.delivered {x y : Entry} (hr : x.resolved = true) (ho : x.result.isSome = true)
    (h : x.delivered = some y) : LawfulEntry y := by
  unfold Entry.delivered at h
  split at h
  · next ht =>
    cases h
    exact of_quarantined rfl hr ho rfl ht
  · cases h

/-- An entry that takes its result is lawful afterwards (R84, R90). -/
theorem LawfulEntry.settled {x y : Entry} (h : x.due = true) (hy : x.settled = some y) : LawfulEntry y := by
  have hr := (x.due_iff.1 h).2
  rw [Entry.settled, if_pos h] at hy
  split at hy
  · cases hy
    exact of_done rfl hr rfl rfl
  · exact delivered (x := x.withResult) hr rfl hy

/-- An entry that is due, or lawful as it is, is lawful once its result is taken. -/
theorem LawfulEntry.settled_of_or {x y : Entry} (h : LawfulEntry x ∨ x.due = true) (hy : x.settled = some y) :
    LawfulEntry y := by
  rcases h with h | h
  · rw [Entry.settled_of_not_due h.not_due] at hy
    cases hy
    exact h
  · exact settled h hy

theorem LawfulEntry.open {x : Entry} (h : LawfulEntry x) {g : Segment} (hg : g ∈ x.segments)
    (hn : g.state.resolved = false) : x.state = .pending ∨ x.state = .issued := by
  obtain ⟨-, -, -, hd, -⟩ := h
  cases hs : x.state with
  | pending => exact .inl rfl
  | issued => exact .inr rfl
  | done | quarantined =>
    have := x.resolved_iff.1 (hd (by simp [hs])).1 g hg
    rw [hn] at this
    cases this

/-- A stall leaves an entry that waits on for its SENT segments, or one that takes its result (R94). -/
theorem LawfulEntry.stall {x : Entry} (h : LawfulEntry x) (hs : x.state = .pending) :
    LawfulEntry (stallEntry x) ∨ (stallEntry x).due = true := by
  obtain ⟨-, -, ho, -, -⟩ := h
  obtain ⟨ht, hresult⟩ := ho (.inl hs)
  cases hr : (stallEntry x).resolved with
  | true => exact .inr ((Entry.due_iff _).2 ⟨.inr rfl, hr⟩)
  | false =>
    have htimed : (stallEntry x).timedOut = false := by
      refine (Entry.timedOut_eq_false_iff _).2
        (Entry.forall_mapStates (P := fun a => a ≠ .failed .timeout).2 fun g hg => ?_)
      have hne := x.timedOut_eq_false_iff.1 ht g hg
      cases hg' : g.state with
      | failed f => simpa [failUnsent, hg'] using hne
      | _ => simp [failUnsent]
    exact .inl (of_issued rfl (x.failUnsent_unsent _) hr htimed hresult)

/-- A timeout makes an entry with a deadline due (R86). -/
theorem Entry.struck_due {x : Entry} (h : x.state = .pending ∨ x.state = .issued) (t : Option Nat) :
    (x.struck t).due = true := (Entry.due_iff _).2 ⟨h, x.failOpen_resolved .timeout⟩

theorem LawfulEntry.open_of_deadline {x : Entry} (h : LawfulEntry x) (hd : x.deadline ≠ none) :
    x.state = .pending ∨ x.state = .issued := by
  obtain ⟨-, -, -, hdone, -⟩ := h
  cases hs : x.state with
  | pending => exact .inl rfl
  | issued => exact .inr rfl
  | done | quarantined => exact absurd (hdone (by simp [hs])).2.2 hd

theorem linkDownOpen_due {x : Entry} (h : x.state = .pending ∨ x.state = .issued) : (linkDownOpen x).due = true :=
  (Entry.due_iff _).2 ⟨h, x.failOpen_resolved .linkDown⟩

theorem linkDownDone_resolved {x : Entry} (h : x.resolved = true) : (linkDownDone x).resolved = true := by
  refine (Entry.resolved_iff _).2
    (Entry.forall_mapStates (P := fun a => a.resolved = true).2 fun g hg => ?_)
  have := x.resolved_iff.1 h g hg
  cases hs : g.state with
  | failed f => cases f <;> rfl
  | _ => simpa [timeoutToLinkDown, hs] using this

/-- No segment ahead of a lost port is unsent (R95). -/
theorem LawfulEntry.forwardLost_resolved {x y : Entry} (h : LawfulEntry x) (hy : x.forwardLost = some y) :
    y.resolved = true := by
  have hsettled : (linkDownOpen x).settled = some y → y.resolved = true := by
    intro hs
    rw [Entry.resolved, (Entry.settled_some hs).2.2]
    exact x.failOpen_resolved .linkDown
  unfold Entry.forwardLost at hy
  split at hy
  · exact hsettled hy
  · exact hsettled hy
  · next hs =>
    obtain ⟨-, -, -, hd, -⟩ := h
    cases hy
    exact linkDownDone_resolved (hd (.inl hs)).1
  · cases hy

theorem LawfulEntry.forwardLost {x y : Entry} (h : LawfulEntry x) (hy : x.forwardLost = some y) : LawfulEntry y := by
  unfold Entry.forwardLost at hy
  split at hy
  · next hs => exact settled (linkDownOpen_due (.inl hs)) hy
  · next hs => exact settled (linkDownOpen_due (.inr hs)) hy
  · next hs =>
    cases hy
    obtain ⟨-, -, -, hd, -⟩ := h
    obtain ⟨hr, hresult, hdeadline⟩ := hd (.inl hs)
    exact of_done hs (linkDownDone_resolved hr) hresult hdeadline
  · cases hy

theorem LawfulEntry.originLost {x y : Entry} (h : LawfulEntry x) (hy : x.originLost = some y) : LawfulEntry y := by
  unfold Entry.originLost at hy
  split at hy
  · cases hy; exact h
  · cases hy; exact h
  · next hs =>
    obtain ⟨-, -, -, hd, -⟩ := h
    obtain ⟨hr, hresult, -⟩ := hd (.inl hs)
    exact delivered (x := { x with orphaned := true }) hr hresult hy
  · cases hy; exact h

/-! ## One segment changed -/

theorem Entry.setState_segments (x : Entry) (k : Nat) (a : SegState) :
    (x.setState k a).segments = x.segments.modify k (fun g => { g with state := a }) := rfl

theorem Entry.getElem?_setState (x : Entry) (k n : Nat) (a : SegState) :
    (x.setState k a).segments[n]? = (x.segments[n]?).map (fun g => if k = n then { g with state := a } else g) := by
  rw [x.setState_segments, List.getElem?_modify]
  rfl

/-- A segment of the changed entry is the changed one, or one of the others as it was. -/
theorem Entry.mem_setState {x : Entry} {k : Nat} {a : SegState} {b : Segment} (h : b ∈ (x.setState k a).segments) :
    b.state = a ∨ ∃ n, n ≠ k ∧ x.segments[n]? = some b := by
  obtain ⟨n, hn⟩ := List.mem_iff_getElem?.1 h
  rw [getElem?_setState] at hn
  obtain ⟨g, hg, rfl⟩ := Option.map_eq_some_iff.1 hn
  by_cases hk : k = n
  · exact .inl (by simp [hk])
  · exact .inr ⟨n, fun h => hk h.symm, by simpa [hk] using hg⟩

/-- The other segments stay. -/
theorem Entry.mem_setState_of_ne {x : Entry} {k n : Nat} {a : SegState} {b : Segment} (hn : n ≠ k)
    (h : x.segments[n]? = some b) : b ∈ (x.setState k a).segments := by
  refine List.mem_iff_getElem?.2 ⟨n, ?_⟩
  rw [getElem?_setState, h]
  simp [Ne.symm hn]

/-- An answer is no timeout. -/
theorem judgeAnswer_resolved (x : Entry) (g : Segment) (a : CplPacket) :
    (judgeAnswer x g a).resolved = true ∧ judgeAnswer x g a ≠ .failed .timeout := by
  unfold judgeAnswer
  split
  · exact ⟨rfl, by simp⟩
  · split <;> split <;> exact ⟨rfl, by simp⟩

theorem resolveSegment_eq (x : Entry) (k : Nat) (g : Segment) (a : CplPacket) :
    resolveSegment x k g a = { x.setState k (judgeAnswer x g a) with buffer := (resolveSegment x k g a).buffer } := by
  simp only [resolveSegment]
  split <;> rfl

/-- An answered entry waits on, or takes its result (R83, R84). -/
theorem LawfulEntry.resolveSegment {x : Entry} {k : Nat} {g : Segment} (h : LawfulEntry x) (hg : x.segments[k]? = some g)
    (hsent : g.state = .sent) (a : CplPacket) :
    LawfulEntry (resolveSegment x k g a) ∨ (Machine.resolveSegment x k g a).due = true := by
  have hmem : g ∈ x.segments := List.mem_of_getElem? hg
  have hopen := h.open hmem (by simp [hsent, SegState.resolved])
  obtain ⟨hres, htimeout⟩ := judgeAnswer_resolved x g a
  have hnotSent : judgeAnswer x g a ≠ .notSent := fun hn => by rw [hn] at hres; cases hres
  obtain ⟨hp, hi, ho, -, -⟩ := h
  obtain ⟨ht, hresult⟩ := ho hopen
  rw [resolveSegment_eq]
  generalize hy : ({ x.setState k (judgeAnswer x g a) with buffer := (Machine.resolveSegment x k g a).buffer } : Entry) = y
  have hseg : y.segments = (x.setState k (judgeAnswer x g a)).segments := by rw [← hy]
  have hstate : y.state = x.state := by rw [← hy]; rfl
  have hyresult : y.result = none := by rw [← hy]; exact hresult
  cases hr : y.resolved with
  | true => exact .inr (y.due_iff.2 ⟨by rwa [hstate], hr⟩)
  | false =>
    have htimed : y.timedOut = false := by
      refine y.timedOut_eq_false_iff.2 fun b hb => ?_
      rw [hseg] at hb
      rcases Entry.mem_setState hb with hb | ⟨n, -, hb⟩
      · rwa [hb]
      · exact x.timedOut_eq_false_iff.1 ht b (List.mem_of_getElem? hb)
    refine .inl ?_
    rcases hopen with hs | hs
    · obtain ⟨b, hb, hbn⟩ := x.unsent_iff.1 (hp hs)
      obtain ⟨n, hn⟩ := List.mem_iff_getElem?.1 hb
      refine of_pending (hstate.trans hs) (y.unsent_iff.2 ⟨b, ?_, hbn⟩) htimed hyresult
      rw [hseg]
      refine Entry.mem_setState_of_ne (fun hnk => ?_) hn
      rw [hnk, hg] at hn
      cases hn
      rw [hbn] at hsent
      cases hsent
    · refine of_issued (hstate.trans hs) (y.unsent_eq_false_iff.2 fun b hb => ?_) hr htimed hyresult
      rw [hseg] at hb
      rcases Entry.mem_setState hb with hb | ⟨n, -, hb⟩
      · rwa [hb]
      · exact x.unsent_eq_false_iff.1 (hi hs).1 b (List.mem_of_getElem? hb)

/-- A departed entry is PENDING while a segment of it is NOT_SENT, and then ISSUED (R79). -/
theorem LawfulEntry.departed {x : Entry} {k : Nat} {g : Segment} (h : LawfulEntry x) (hg : x.segments[k]? = some g)
    (hn : g.state = .notSent) (setting : TCto) : LawfulEntry (x.departed k setting) := by
  have hopen := h.open (List.mem_of_getElem? hg) (by simp [hn, SegState.resolved])
  obtain ⟨-, -, ho, -, -⟩ := h
  obtain ⟨ht, hresult⟩ := ho hopen
  have hseg : (x.departed k setting).segments = (x.setState k .sent).segments := rfl
  have hstate : (x.departed k setting).state = if (x.setState k .sent).unsent then .pending else .issued := rfl
  have hunsent : (x.departed k setting).unsent = (x.setState k .sent).unsent := rfl
  have hsent : (x.departed k setting).resolved = false := by
    by_contra hr
    rw [Bool.not_eq_false, Entry.resolved_iff] at hr
    have hk : ({ g with state := .sent } : Segment) ∈ (x.departed k setting).segments := by
      refine List.mem_iff_getElem?.2 ⟨k, ?_⟩
      rw [hseg, Entry.getElem?_setState, hg]
      simp
    cases hr _ hk
  have htimed : (x.departed k setting).timedOut = false := by
    refine (Entry.timedOut_eq_false_iff _).2 fun b hb => ?_
    rw [hseg] at hb
    rcases Entry.mem_setState hb with hb | ⟨n, -, hb⟩
    · rw [hb]; simp
    · exact x.timedOut_eq_false_iff.1 ht b (List.mem_of_getElem? hb)
  cases hu : (x.setState k .sent).unsent <;> rw [hu] at hstate hunsent
  · exact of_issued hstate hunsent hsent htimed hresult
  · exact of_pending hstate hunsent htimed hresult

/-! ## A new entry (R64, R76) -/

/-- A request has a segment (R61). -/
theorem cutSegments_ne_nil (g : Granule) (a n : Nat) : cutSegments g a n ≠ [] := by
  unfold cutSegments
  split
  · simp
  · simp [segmentCount, *]

theorem newEntry_lawful (p : Port) (k : EntryKind) (r : Request) (w : Fin 16) (win : Window) (a : Addr) :
    LawfulEntry (newEntry p k r w win a) := by
  have hseg : ∀ g ∈ (newEntry p k r w win a).segments, g.state = .notSent := by
    intro g hg
    obtain ⟨b, -, rfl⟩ := List.mem_map.1 hg
    rfl
  obtain ⟨b, rest, hb⟩ := List.exists_cons_of_ne_nil (cutSegments_ne_nil win.granule a.toNat r.length.toNat)
  have hex : (newEntry p k r w win a).unsent = true :=
    (Entry.unsent_iff _).2 ⟨_, List.mem_map.2 ⟨b, by rw [hb]; simp, rfl⟩, rfl⟩
  refine .of_pending rfl hex ?_ rfl
  exact (Entry.timedOut_eq_false_iff _).2 fun g hg => by rw [hseg g hg]; simp

theorem LawfulEntry.tick {x : Entry} (h : LawfulEntry x) : LawfulEntry x.tick := by
  obtain ⟨hp, hi, ho, hd, hq⟩ := h
  refine ⟨hp, hi, ho, fun hs => ?_, hq⟩
  obtain ⟨hr, hresult, hdeadline⟩ := hd hs
  exact ⟨hr, hresult, by simp [Entry.tick, hdeadline]⟩

/-! ## Every change keeps the law of the entries -/

theorem entryLaw_of_same {s t : State} (h : EntryLaw s) (ht : ∀ e, t.entry e = s.entry e) : EntryLaw t :=
  fun e x hx => h e x (by rw [← ht, hx])

/-- Each entry that stands in `t` is one of `s`, or lawful. -/
theorem entryLaw_of_new {s t : State} (h : EntryLaw s)
    (ht : ∀ e x, t.entry e = some x → s.entry e = some x ∨ LawfulEntry x) : EntryLaw t :=
  fun e x hx => (ht e x hx).elim (h e x) id

@[simp] theorem State.entry_notices (s : State) (u : NoticeUnit) (i : Fin 64) :
    State.entry { s with notices := u } i = s.entry i := rfl

theorem Change.keeps_entryLaw {s t : State} (hc : Change c s t) (h : EntryLaw s) : EntryLaw t := by
  have hlaw := (entryLaw_iff s).1 h
  cases hc with
  | powerUp => exact fun e x hx => absurd ((State.entry_reset e).symm.trans hx) (by simp)
  | closed p =>
    intro e x hx
    rw [linkLossState_entry] at hx
    obtain ⟨y, hy, hyx⟩ := Option.bind_eq_some_iff.1 hx
    split at hyx
    · exact (hlaw e y hy).forwardLost hyx
    · exact (hlaw e y hy).originLost hyx
  | matched p a x g hx hg hm =>
    have hsent : g.state = .sent := by
      simp only [matchesSegment, Bool.and_eq_true, decide_eq_true_eq] at hm
      exact hm.1.2
    refine entryLaw_of_new h fun e y hy => ?_
    rw [takeResult_entry, State.entry_setEntry_self, State.entry_setEntry] at hy
    split at hy
    · exact .inr (LawfulEntry.settled_of_or ((hlaw _ x hx).resolveSegment hg hsent a) hy)
    · exact .inl hy
  | headSent p k rest =>
    cases k with
    | segment e n q =>
      rcases segmentSent_eq e n (s.setPort p ((s.port p).sendHead (.segment e n q) rest)) with hs | ⟨x, g, hx, hg, hn, hs⟩
      · exact entryLaw_of_same h fun i => by rw [departureState, hs]; simp
      · refine entryLaw_of_new h fun i y hy => ?_
        rw [departureState, hs, State.entry_setEntry] at hy
        split at hy
        · cases hy
          exact .inr ((hlaw e x (by simpa using hx)).departed hg hn _)
        · exact .inl (by simpa using hy)
    | _ => exact entryLaw_of_same h fun i => by simp [departureState]
  | wrote t hw =>
    cases hw with
    | reset => exact fun e x hx => absurd hx (by simp)
    | _ => exact entryLaw_of_same h fun e => by first | rfl | simp
  | forwarded p r w =>
    rcases forward_entry_cases p r w s with hs | ⟨e, -, -, hs⟩
    · exact entryLaw_of_same h hs
    · refine entryLaw_of_new h fun i y hy => ?_
      rw [hs] at hy
      split at hy
      · cases hy; exact .inr (newEntry_lawful _ _ _ _ _ _)
      · exact .inl hy
  | placed p a ha =>
    cases a with
    | outbox k => exact entryLaw_of_same h fun e => by simp [placeClaim]
    | expired k => exact entryLaw_of_same h fun e => by simp [placeClaim]
    | done e =>
      obtain ⟨-, x, hx, hdone, -⟩ := nextClaim_stands ha
      obtain ⟨-, -, -, hd, -⟩ := hlaw e x hx
      obtain ⟨hr, hresult, -⟩ := hd (.inl hdone)
      refine entryLaw_of_new h fun i y hy => ?_
      simp only [placeClaim, deliverDone, hx, deliver_entry_eq, place_entry] at hy
      split at hy
      · exact .inr (LawfulEntry.delivered hr hresult hy)
      · exact .inl hy
  | timedOut e =>
    by_cases hnone : ∀ x, s.entry e = some x → x.deadline = none
    · exact entryLaw_of_same h fun i => by rw [expireDeadline_of_none hnone]
    · simp only [not_forall] at hnone
      obtain ⟨x, hx, hd⟩ := hnone
      obtain ⟨d, hd'⟩ := Option.ne_none_iff_exists'.1 hd
      refine entryLaw_of_new h fun i y hy => ?_
      rw [expireDeadline_entry hx hd'] at hy
      split at hy
      · exact .inr (LawfulEntry.settled (Entry.struck_due ((hlaw e x hx).open_of_deadline hd) _) hy)
      · exact .inl hy
  | quarantineEnded e =>
    refine entryLaw_of_new h fun i y hy => ?_
    rcases expireQuarantine_entry e i s with hs | ⟨-, -, hs⟩ <;> rw [hs] at hy
    · exact .inl hy
    · cases hy
  | stalled p =>
    refine entryLaw_of_new h fun i y hy => ?_
    rw [expireStall_entry] at hy
    split at hy
    · next hi =>
      obtain ⟨-, x, hx, hpend⟩ := mem_stalledOnes.1 hi.2
      rw [hx] at hy
      exact .inr (LawfulEntry.settled_of_or ((hlaw i x hx).stall hpend) hy)
    · exact .inl hy
  | countedDown =>
    intro e x hx
    rw [countDown_entry] at hx
    obtain ⟨y, hy, rfl⟩ := Option.map_eq_some_iff.1 hx
    exact (hlaw e y hy).tick
  | _ => exact entryLaw_of_same h fun e => by first | rfl | simp [countDiscard, countStray, headWaiting]

end Sys2Proof.Machine
end

section
/-! Queued segment packets and NOT_SENT segments, one to one (R78). -/

namespace Sys2Proof.Machine

open Sys2Proof.Safety

variable {c : Option Instr}

/-! ## Unsent segments -/

/-- Is segment `n` of what stands in an entry's place NOT_SENT, with port `p` ahead? -/
def unsentIn (p : Port) (n : Nat) (o : Option Entry) : Prop :=
  ∃ x g, o = some x ∧ forwardPort x.dir = p ∧ x.segments[n]? = some g ∧ g.state = .notSent

/-- Each queue holds one packet for every NOT_SENT segment that its port has ahead, and no other segment packet. -/
def PacketLaw (s : State) : Prop :=
  ∀ p, (segmentRefs (s.port p).egress).Nodup ∧
    ∀ e n, (e, n) ∈ segmentRefs (s.port p).egress ↔ unsentIn p n (s.entry e)

@[simp] theorem unsentIn_none (p : Port) (n : Nat) : ¬ unsentIn p n none := by simp [unsentIn]

theorem unsentIn_some (p : Port) (n : Nat) (x : Entry) :
    unsentIn p n (some x) ↔ forwardPort x.dir = p ∧ ∃ g, x.segments[n]? = some g ∧ g.state = .notSent := by
  simp [unsentIn]

/-- Among lawful entries an unsent segment is a PENDING entry's. -/
theorem LawfulEntry.pending_of_unsent {x : Entry} (h : LawfulEntry x) {n : Nat} {g : Segment} (hg : x.segments[n]? = some g)
    (hn : g.state = .notSent) : x.state = .pending := by
  have hm := List.mem_of_getElem? hg
  rcases h.open hm (by simp [hn, SegState.resolved]) with hs | hs
  · exact hs
  · obtain ⟨-, hi, -⟩ := h
    exact absurd hn (x.unsent_eq_false_iff.1 (hi hs).1 g hm)

/-- With lawful entries the two ways to say R78 agree. -/
theorem egressLaw_iff {s : State} (h : EntryLaw s) : EgressLaw s ↔ PacketLaw s := by
  constructor
  · rintro ⟨hq, hseg⟩ p
    obtain ⟨hn, href⟩ := hq p
    refine ⟨hn, fun e n => ⟨fun hm => ?_, fun hu => ?_⟩⟩
    · obtain ⟨x, g, hx, -, hp, hg, hs⟩ := href e n hm
      exact ⟨x, g, hx, hp, hg, hs⟩
    · obtain ⟨x, g, hx, rfl, hg, hs⟩ := hu
      exact hseg e n x g hx hg hs
  · intro hl
    refine ⟨fun p => ⟨(hl p).1, fun e n hm => ?_⟩, fun e n x g hx hg hs => ((hl _).2 e n).2 ⟨x, g, hx, rfl, hg, hs⟩⟩
    obtain ⟨x, g, hx, hp, hg, hs⟩ := ((hl p).2 e n).1 hm
    exact ⟨x, g, hx, LawfulEntry.pending_of_unsent (h e x hx) hg hs, hp, hg, hs⟩

/-- A resolved entry has no unsent segment, whatever its place. -/
theorem not_unsentIn_of_resolved {x : Entry} (h : x.resolved = true) (p : Port) (n : Nat) : ¬ unsentIn p n (some x) := by
  rw [unsentIn_some]
  rintro ⟨-, g, hg, hs⟩
  have := x.resolved_iff.1 h g (List.mem_of_getElem? hg)
  rw [hs] at this
  cases this

theorem resolved_congr {x y : Entry} (h : y.segments = x.segments) : y.resolved = x.resolved := by
  simp only [Entry.resolved, h]

theorem not_unsentIn_delivered {x : Entry} (h : x.resolved = true) (p : Port) (n : Nat) : ¬ unsentIn p n x.delivered := by
  cases hy : x.delivered with
  | none => simp
  | some y => exact not_unsentIn_of_resolved (by rwa [resolved_congr (Entry.delivered_some hy).2.2]) p n

/-- Taking a result makes no segment unsent, and leaves those that are. -/
theorem unsentIn_settled (x : Entry) (p : Port) (n : Nat) : unsentIn p n x.settled ↔ unsentIn p n (some x) := by
  cases hd : x.due with
  | false => rw [Entry.settled_of_not_due hd]
  | true =>
    have hr := (x.due_iff.1 hd).2
    refine iff_of_false ?_ (not_unsentIn_of_resolved hr p n)
    cases hy : x.settled with
    | none => simp
    | some y => exact not_unsentIn_of_resolved (by rwa [resolved_congr (Entry.settled_some hy).2.2]) p n

/-- An entry with all open segments failed has no unsent one. -/
theorem not_unsentIn_settled {x : Entry} (h : x.unsent = false) (p : Port) (n : Nat) : ¬ unsentIn p n x.settled := by
  rw [unsentIn_settled, unsentIn_some]
  rintro ⟨-, g, hg, hs⟩
  exact x.unsent_eq_false_iff.1 h g (List.mem_of_getElem? hg) hs

/-- Two entries with the same unsent segments and direction. -/
theorem unsentIn_congr {x y : Entry} (hd : y.dir = x.dir)
    (h : ∀ n : Nat, (∃ g, y.segments[n]? = some g ∧ g.state = SegState.notSent) ↔
      ∃ g, x.segments[n]? = some g ∧ g.state = SegState.notSent)
    (p : Port) (n : Nat) : unsentIn p n (some y) ↔ unsentIn p n (some x) := by
  rw [unsentIn_some, unsentIn_some, hd, h]

/-- An answer to a SENT segment leaves the unsent ones. -/
theorem unsentIn_resolveSegment {x : Entry} {k : Nat} {g : Segment} (hg : x.segments[k]? = some g) (hs : g.state = .sent)
    (a : CplPacket) (p : Port) (n : Nat) : unsentIn p n (some (resolveSegment x k g a)) ↔ unsentIn p n (some x) := by
  rw [resolveSegment_eq]
  refine unsentIn_congr (x := x) (by rfl) (fun m => ?_) p n
  show (∃ b, (x.setState k (judgeAnswer x g a)).segments[m]? = some b ∧ b.state = .notSent) ↔ _
  rw [Entry.getElem?_setState]
  by_cases hm : k = m
  · subst hm
    have hne : judgeAnswer x g a ≠ .notSent := fun h => by
      have := (judgeAnswer_resolved x g a).1
      rw [h] at this
      cases this
    simp [hg, hs, hne]
  · simp [hm]

/-- The departed segment is not unsent any more; the others are as they were (R79). -/
theorem unsentIn_departed (x : Entry) (k : Nat) (setting : TCto) (p : Port) (n : Nat) :
    unsentIn p n (some (x.departed k setting)) ↔ n ≠ k ∧ unsentIn p n (some x) := by
  rw [unsentIn_some, unsentIn_some]
  show forwardPort x.dir = p ∧ (∃ b, (x.setState k .sent).segments[n]? = some b ∧ b.state = .notSent) ↔ _
  rw [Entry.getElem?_setState]
  by_cases hn : k = n
  · subst hn
    simp
  · simp [hn, Ne.symm hn]

/-! ## Packets of a queue -/

@[simp] theorem segmentRefs_nil : segmentRefs [] = [] := rfl

@[simp] theorem segmentRefs_append (a b : List EgressPacket) : segmentRefs (a ++ b) = segmentRefs a ++ segmentRefs b := by
  simp [segmentRefs]

@[simp] theorem segmentRefs_segment (e : Fin 64) (n : Nat) (q : SegmentPacket) (ks : List EgressPacket) :
    segmentRefs (.segment e n q :: ks) = (e, n) :: segmentRefs ks := rfl

@[simp] theorem segmentRefs_pass (node : Node) (d : Dir) (w : Fin 16) (q : SegmentPacket) (ks : List EgressPacket) :
    segmentRefs (.pass node d w q :: ks) = segmentRefs ks := rfl

@[simp] theorem segmentRefs_notice (a : StampedNotice) (ks : List EgressPacket) :
    segmentRefs (.notice a :: ks) = segmentRefs ks := rfl

theorem mem_segmentRefs {ks : List EgressPacket} {e : Fin 64} {n : Nat} :
    (e, n) ∈ segmentRefs ks ↔ ∃ q, EgressPacket.segment e n q ∈ ks := by
  simp only [segmentRefs, List.mem_filterMap]
  constructor
  · rintro ⟨k, hk, he⟩
    cases k with
    | segment i m q => cases he; exact ⟨q, hk⟩
    | _ => cases he
  · rintro ⟨q, hk⟩
    exact ⟨_, hk, rfl⟩

/-- Posted segments refer to no entry (R66). -/
theorem segmentRefs_passPackets (d : Dir) (w : Fin 16) (x : Window) (r : Request) :
    segmentRefs (passPackets d w x r) = [] := by
  simp [segmentRefs, passPackets, List.filterMap_map]

/-- An entry's packets refer to its segments, each once. -/
theorem segmentRefs_entryPackets (e : Fin 64) (w : Window) (r : Request) :
    segmentRefs (entryPackets e w r) = (List.range (segmentsOf w r).length).map (fun k => (e, k)) := by
  refine List.ext_getElem? fun i => ?_
  have hmap : segmentRefs (entryPackets e w r) = (segmentsOf w r).mapIdx (fun k _ => (e, k)) := by
    rw [segmentRefs, entryPackets, List.mapIdx_eq_zipIdx_map, List.filterMap_map, List.mapIdx_eq_zipIdx_map,
      ← List.filterMap_eq_map]
    rfl
  rw [hmap, List.getElem?_mapIdx, List.getElem?_map]
  by_cases hi : i < (segmentsOf w r).length
  · simp [hi]
  · simp [hi]

/-- The packets of an entry withdrawn (R121). -/
theorem segmentRefs_withdraw (x : PortState) (e : Fin 64) :
    segmentRefs (x.withdraw e).egress = (segmentRefs x.egress).filter (fun a => decide (a.1 ≠ e)) := by
  simp only [PortState.withdraw]
  induction x.egress with
  | nil => rfl
  | cons k ks ih =>
    cases k with
    | segment i n q => by_cases hi : i = e <;> simp [hi] at ih ⊢ <;> exact ih
    | _ => simpa using ih

/-! ## Forwards -/

theorem forward_of_pass {p : Port} {r : Request} {w : Fin 16} {s : State}
    (h : passes (s.window (dirOf p) w) r = true) :
    forward p r w s = enqueue (forwardPort (dirOf p)) (passPackets (dirOf p) w (s.window (dirOf p) w) r)
      (s.setWindow (dirOf p) w { s.window (dirOf p) w with hits := (s.window (dirOf p) w).hits + 1 }) := by
  simp [forward, h]

theorem forward_of_entry {p : Port} {r : Request} {w : Fin 16} {s : State} {e : Fin 64}
    (h : passes (s.window (dirOf p) w) r = false) (he : s.firstFree = some e) :
    forward p r w s = enqueue (forwardPort (dirOf p)) (entryPackets e (s.window (dirOf p) w) r)
      ((s.setWindow (dirOf p) w (s.window (dirOf p) w).charge).setEntry e
        (some (newEntry p (entryKindOf r.kind) r w (s.window (dirOf p) w)
          ((s.window (dirOf p) w).translate r.address)))) := by
  simp [forward, h, he]

/-- A new entry's segments are all unsent (R64). -/
theorem unsentIn_newEntry (p q : Port) (k : EntryKind) (r : Request) (w : Fin 16) (win : Window) (n : Nat) :
    unsentIn q n (some (newEntry p k r w win (win.translate r.address))) ↔
      forwardPort (dirOf p) = q ∧ n < (segmentsOf win r).length := by
  rw [unsentIn_some]
  refine and_congr Iff.rfl ?_
  show (∃ g, ((segmentsOf win r).map _)[n]? = some g ∧ _) ↔ _
  rw [List.getElem?_map]
  by_cases hn : n < (segmentsOf win r).length
  · simp [hn]
  · simp [hn]

/-! ## Every change keeps the correspondence -/

/-- The same packets and the same unsent segments. -/
theorem packetLaw_of_same {s t : State} (h : PacketLaw s)
    (hp : ∀ q, segmentRefs (t.port q).egress = segmentRefs (s.port q).egress)
    (he : ∀ q n e, unsentIn q n (t.entry e) ↔ unsentIn q n (s.entry e)) : PacketLaw t := by
  intro p
  rw [hp]
  exact ⟨(h p).1, fun e n => by rw [he]; exact (h p).2 e n⟩

theorem packetLaw_of_frame {s t : State} (h : PacketLaw s) (hp : ∀ q, (t.port q).egress = (s.port q).egress)
    (he : ∀ e, t.entry e = s.entry e) : PacketLaw t :=
  packetLaw_of_same h (fun q => by rw [hp]) (fun q n e => by rw [he])

/-- Nothing queued and no entry. -/
theorem packetLaw_of_empty {s : State} (hp : ∀ q, (s.port q).egress = []) (he : ∀ e, s.entry e = none) : PacketLaw s := by
  intro p
  rw [hp]
  exact ⟨List.nodup_nil, fun e n => by simp [he]⟩

/-- A port that a flush has emptied has no entry with unsent segments left; the other port is as it was. -/
theorem packetLaw_of_flush {s t : State} (p : Port) (h : PacketLaw s)
    (hp : ∀ q, (t.port q).egress = if q = p then [] else (s.port q).egress)
    (he : ∀ q n e, unsentIn q n (t.entry e) ↔ q ≠ p ∧ unsentIn q n (s.entry e)) : PacketLaw t := by
  intro q
  rw [hp]
  by_cases hq : q = p
  · simp only [hq, if_true]
    exact ⟨List.nodup_nil, fun e n => by simp [he]⟩
  · simp only [hq, if_false]
    exact ⟨(h q).1, fun e n => by rw [he]; simpa [hq] using (h q).2 e n⟩

theorem State.setPort_egress {s : State} {p q : Port} {x : PortState} (h : x.egress = (s.port p).egress) :
    ((s.setPort p x).port q).egress = (s.port q).egress := by
  rw [State.port_setPort]
  split
  · next hq => rw [hq, h]
  · rfl

theorem egress_of_completion {s t : State} {p : Port} {r : Completion}
    (h : ∀ q, t.port q = if q = p then { s.port p with completions := (s.port p).completions ++ [r] } else s.port q)
    (q : Port) : (t.port q).egress = (s.port q).egress := by
  rw [h]
  split
  · next hq => rw [hq]
  · rfl

theorem PortState.sendHead_egress (x : PortState) (k : EgressPacket) (rest : List EgressPacket) :
    (x.sendHead k rest).egress = rest := by
  simp only [PortState.sendHead]
  split <;> rfl

/-- Entry `e`'s packets withdrawn at its own port: none is left anywhere. -/
theorem packetLaw_of_withdraw {s t : State} {e : Fin 64} {x : Entry} (h : PacketLaw s) (hx : s.entry e = some x)
    (hp : ∀ q, t.port q = if q = forwardPort x.dir then (s.port q).withdraw e else s.port q)
    (hi : ∀ i, i ≠ e → t.entry i = s.entry i) (he : ∀ q n, ¬ unsentIn q n (t.entry e)) : PacketLaw t := by
  intro q
  have hother : ∀ i n, i ≠ e → ((i, n) ∈ segmentRefs (s.port q).egress ↔ unsentIn q n (t.entry i)) := by
    intro i n hie
    rw [hi i hie]
    exact (h q).2 i n
  rw [hp]
  split
  · rw [segmentRefs_withdraw]
    refine ⟨(h q).1.filter _, fun i n => ?_⟩
    by_cases hie : i = e
    · subst hie; simp [he]
    · simpa [hie] using hother i n hie
  · next hq =>
    refine ⟨(h q).1, fun i n => ?_⟩
    by_cases hie : i = e
    · subst hie
      rw [(h q).2, hx, unsentIn_some]
      exact iff_of_false (fun hu => hq hu.1.symm) (he q n)
    · exact hother i n hie

/-- The egress head gone: its segment, if it is one, is sent (R79). -/
theorem packetLaw_departure {s : State} {p : Port} {k : EgressPacket} {rest : List EgressPacket} (h : PacketLaw s)
    (hq : (s.port p).egress = k :: rest) : PacketLaw (departureState p k rest s) := by
  have hport : ∀ q, ((departureState p k rest s).port q).egress = if q = p then rest else (s.port q).egress := by
    intro q
    rw [departureState_port]
    split
    · exact PortState.sendHead_egress _ _ _
    · rfl
  cases k with
  | segment e n a =>
    have href := fun i m => (h p).2 i m
    have hnodup := (h p).1
    rw [hq, segmentRefs_segment] at hnodup
    simp only [hq, segmentRefs_segment] at href
    obtain ⟨hfresh, hrest⟩ := List.nodup_cons.1 hnodup
    obtain ⟨x, g, hx, hp, hg, hs⟩ := (href e n).1 (by simp)
    have hentry : ∀ i, (departureState p (.segment e n a) rest s).entry i =
        if i = e then some (x.departed n (s.tcto x.dir)) else s.entry i := by
      intro i
      simp [departureState, segmentSent, hx, hg, hs, State.entry_setEntry]
    intro q
    rw [hport]
    by_cases hqp : q = p
    · subst hqp
      rw [if_pos rfl]
      refine ⟨hrest, fun i m => ?_⟩
      rw [hentry]
      by_cases hi : i = e
      · subst hi
        rw [if_pos rfl, unsentIn_departed, ← hx, ← href]
        by_cases hm : m = n
        · subst hm; simpa using hfresh
        · simp [hm]
      · rw [if_neg hi, ← href]
        simp [hi]
    · rw [if_neg hqp]
      refine ⟨(h q).1, fun i m => ?_⟩
      rw [hentry, (h q).2]
      by_cases hi : i = e
      · subst hi
        rw [if_pos rfl, hx, unsentIn_some, unsentIn_some]
        exact iff_of_false (fun hu => hqp (hu.1.symm.trans hp)) (fun hu => hqp (hu.1.symm.trans hp))
      · rw [if_neg hi]
  | _ =>
    refine packetLaw_of_same h (fun q => ?_) (fun q n e => by simp [departureState])
    rw [hport]
    split
    · next hqp => rw [hqp, hq]; rfl
    · rfl

/-- A forward queues a packet for each segment of its new entry (R63, R64). -/
theorem packetLaw_forward {s : State} (h : PacketLaw s) (p : Port) (r : Request) (w : Fin 16) :
    PacketLaw (forward p r w s) := by
  cases hpass : passes (s.window (dirOf p) w) r with
  | true =>
    rw [forward_of_pass hpass]
    refine packetLaw_of_same h (fun q => ?_) (fun q n e => by simp)
    rw [Machine.enqueue, State.port_setPort]
    split
    · next hq => subst hq; simp [segmentRefs_passPackets]
    · simp
  | false =>
    cases hfree : s.firstFree with
    | none => simpa [forward, hpass, hfree] using h
    | some e =>
      rw [forward_of_entry hpass hfree]
      have hnone := firstFree_some hfree
      have hold : ∀ q n, (e, n) ∉ segmentRefs (s.port q).egress := fun q n hm => by
        have := ((h q).2 e n).1 hm
        rw [hnone] at this
        exact unsentIn_none _ _ this
      intro q
      by_cases hq : q = forwardPort (dirOf p)
      · subst hq
        simp only [Machine.enqueue, State.port_setPort_self, State.port_setEntry, State.port_setWindow,
          PortState.enqueue_egress, segmentRefs_append, segmentRefs_entryPackets, State.entry_setPort, State.entry_setEntry,
          State.entry_setWindow]
        refine ⟨List.nodup_append.2 ⟨(h _).1, List.Nodup.map (fun a b hab => by cases hab; rfl) List.nodup_range,
          fun a ha b hb hab => ?_⟩, fun i n => ?_⟩
        · obtain ⟨k, -, rfl⟩ := List.mem_map.1 hb
          rw [hab] at ha
          exact hold _ _ ha
        · rw [List.mem_append, (h _).2]
          by_cases hi : i = e
          · subst hi
            rw [if_pos rfl, unsentIn_newEntry, hnone]
            simp
          · rw [if_neg hi]
            simp [Ne.symm hi]
      · simp only [Machine.enqueue, State.port_setPort_ne _ _ _ _ hq, State.port_setEntry, State.port_setWindow,
          State.entry_setPort, State.entry_setEntry, State.entry_setWindow]
        refine ⟨(h q).1, fun i n => ?_⟩
        by_cases hi : i = e
        · subst hi
          rw [if_pos rfl, unsentIn_newEntry]
          exact iff_of_false (hold q n) (fun hu => hq hu.1.symm)
        · rw [if_neg hi]
          exact (h q).2 i n

/-- The link loss of a port flushes its queue and leaves no unsent segment ahead of it (R95, R132). -/
theorem packetLaw_linkLoss {s : State} (hl : EntryLaw s) (h : PacketLaw s) (p : Port) : PacketLaw (linkLossState p s) := by
  refine packetLaw_of_flush p h (fun q => by rw [linkLossState_port]; split <;> rfl) fun q n e => ?_
  rw [linkLossState_entry]
  cases hx : s.entry e with
  | none => simp
  | some x =>
    rw [Option.bind_some]
    by_cases hp : forwardPort x.dir = p
    · rw [if_pos hp]
      refine iff_of_false ?_ (fun hu => hu.1 (((unsentIn_some q n x).1 hu.2).1.symm.trans hp))
      cases hy : x.forwardLost with
      | none => simp
      | some y => exact not_unsentIn_of_resolved (LawfulEntry.forwardLost_resolved (hl e x hx) hy) q n
    · rw [if_neg hp]
      have hsame : unsentIn q n x.originLost ↔ unsentIn q n (some x) := by
        unfold Entry.originLost
        split
        · simp only [unsentIn_some]
        · simp only [unsentIn_some]
        · next hs =>
          obtain ⟨-, -, -, hd, -⟩ := hl e x hx
          have hr := (hd (.inl hs)).1
          exact iff_of_false (not_unsentIn_delivered (x := { x with orphaned := true }) hr q n)
            (not_unsentIn_of_resolved hr q n)
        · exact Iff.rfl
      rw [hsame, unsentIn_some]
      exact ⟨fun hu => ⟨fun hq => hp (hu.1.trans hq), hu⟩, fun hu => hu.2⟩

/-- A stall flushes its port's queue, and the entries whose packets stood there fail their unsent segments (R94). -/
theorem packetLaw_stall {s : State} (hl : EntryLaw s) (h : PacketLaw s) (p : Port) : PacketLaw (expireStall p s).1 := by
  by_cases hrun : (s.port p).stallTimer = none
  · exact packetLaw_of_frame h (fun q => by simp [expireStall_port, hrun]) (fun e => by simp [expireStall_entry, hrun])
  refine packetLaw_of_flush p h (fun q => ?_) fun q n e => ?_
  · rw [expireStall_port]
    by_cases hq : q = p
    · simp [hq, hrun, PortState.stall]
    · simp [hq]
  rw [expireStall_entry]
  have hones : e ∈ stalledOnes (s.port p).egress s ↔
      ∃ m, unsentIn p m (s.entry e) := by
    rw [mem_stalledOnes, mem_entriesOf]
    constructor
    · rintro ⟨⟨m, a, ha⟩, -⟩
      exact ⟨m, ((h p).2 e m).1 (mem_segmentRefs.2 ⟨a, ha⟩)⟩
    · rintro ⟨m, hu⟩
      obtain ⟨a, ha⟩ := mem_segmentRefs.1 (((h p).2 e m).2 hu)
      obtain ⟨x, g, hx, -, hg, hs⟩ := hu
      exact ⟨⟨m, a, ha⟩, x, hx, LawfulEntry.pending_of_unsent (hl e x hx) hg hs⟩
  by_cases hmem : e ∈ stalledOnes (s.port p).egress s
  · obtain ⟨m, x, g, hx, hp, -⟩ := hones.1 hmem
    rw [if_pos ⟨hrun, hmem⟩, hx, Option.bind_some]
    exact iff_of_false (not_unsentIn_settled (x := stallEntry x) (x.failUnsent_unsent .portStalled) q n)
      (fun hu => hu.1 (((unsentIn_some q n x).1 hu.2).1.symm.trans hp))
  · rw [if_neg fun hc => hmem hc.2]
    exact ⟨fun hu => ⟨fun hq => hmem (hones.2 ⟨n, hq ▸ hu⟩), hu⟩, fun hu => hu.2⟩

theorem Change.keeps_packetLaw {s t : State} (hc : Change c s t) (hl : EntryLaw s) (h : PacketLaw s) : PacketLaw t := by
  cases hc with
  | powerUp => exact packetLaw_of_empty (fun q => by cases q <;> rfl) (fun e => State.entry_reset e)
  | deasserted straps => exact packetLaw_of_frame h (fun q => by cases q <;> rfl) (fun e => rfl)
  | closed p => exact packetLaw_linkLoss hl h p
  | matched p a x g hx hg hm =>
    have hsent : g.state = .sent := by
      simp only [matchesSegment, Bool.and_eq_true, decide_eq_true_eq] at hm
      exact hm.1.2
    refine packetLaw_of_same h (fun q => by rw [(takeResult_tableChange _ _).port, State.port_setEntry]) fun q n e => ?_
    rw [takeResult_entry, State.entry_setEntry_self, State.entry_setEntry]
    by_cases he : e = tagEntry a.tag
    · rw [if_pos he, Option.bind_some, unsentIn_settled, unsentIn_resolveSegment hg hsent, he, hx]
    · rw [if_neg he, if_neg he]
  | headSent p k rest _ hq => exact packetLaw_departure h hq
  | acquired k node p tag =>
    refine packetLaw_of_frame h (fun q => ?_) (fun e => by simp)
    rcases acquire_port_cases k node p tag s with hsame | ⟨r, hone⟩
    · rw [hsame]
    · exact egress_of_completion hone q
  | released k node p tag g =>
    obtain ⟨r, hone⟩ := release_port k node p tag g s
    exact packetLaw_of_frame h (egress_of_completion hone) (fun e => by simp)
  | answered p a =>
    exact packetLaw_of_frame h (fun q => State.setPort_egress rfl) (fun e => by simp)
  | wrote t hw =>
    cases hw with
    | reset => exact packetLaw_of_empty (fun q => by rw [softReset_port]; rfl) (fun e => by simp)
    | identity p n => exact packetLaw_of_frame h (fun q => State.setPort_egress rfl) (fun e => by simp)
    | tStall p v => exact packetLaw_of_frame h (fun q => State.setPort_egress rfl) (fun e => by simp)
    | _ => exact packetLaw_of_frame h (fun q => by simp) (fun e => by first | rfl | simp)
  | forwarded p r w => exact packetLaw_forward h p r w
  | placed p a ha =>
    rcases placeClaim_port_cases ha with hsame | ⟨r, hone⟩
    · exact absurd (hsame p) fun hp => by
        obtain ⟨b, hb⟩ := placeClaim_port_of_stands (nextClaim_stands ha)
        rw [hb, if_pos rfl] at hp
        have := congrArg (fun x : PortState => x.completions.length) hp
        simp at this
    · refine packetLaw_of_same h (fun q => by rw [egress_of_completion hone]) fun q n e => ?_
      cases a with
      | outbox k => simp [placeClaim]
      | expired k => simp [placeClaim]
      | done i =>
        obtain ⟨-, x, hx, hdone, -⟩ := nextClaim_stands ha
        obtain ⟨-, -, -, hd, -⟩ := hl i x hx
        have hr := (hd (.inl hdone)).1
        simp only [placeClaim, deliverDone, hx, deliver_entry_eq, place_entry]
        by_cases he : e = i
        · rw [if_pos he, he, hx]
          exact iff_of_false (not_unsentIn_delivered hr q n) (not_unsentIn_of_resolved hr q n)
        · rw [if_neg he]
  | noticePlaced p r rest =>
    refine packetLaw_of_same h (fun q => ?_) (fun q n e => by simp)
    rw [Machine.enqueue, State.port_setPort]
    split
    · next hq => subst hq; simp
    · simp
  | timedOut e =>
    by_cases hnone : ∀ x, s.entry e = some x → x.deadline = none
    · rw [expireDeadline_of_none hnone]
      exact h
    · simp only [not_forall] at hnone
      obtain ⟨x, hx, hd⟩ := hnone
      obtain ⟨d, hd'⟩ := Option.ne_none_iff_exists'.1 hd
      have hentry := expireDeadline_entry hx hd'
      refine packetLaw_of_withdraw h hx (fun q => ?_) (fun i hi => by rw [hentry, if_neg hi]) fun q n => ?_
      · have hdrawn : ∀ (b : State) (l : List Raise), (if l = [] then b else b.drawn 1).port q = b.port q := by
          intro b l
          split <;> simp
        rw [expireDeadline_eq hx hd', hdrawn, (takeResult_tableChange _ _).port, struckState, State.port_setEntry,
          State.port_setPort]
        split
        · next hq => rw [hq]
        · rfl
      · rw [hentry, if_pos rfl]
        exact not_unsentIn_settled (x := x.struck (quarTicks s x d)) (Entry.unsent_of_resolved (x.failOpen_resolved .timeout)) q n
  | quarantineEnded e =>
    refine packetLaw_of_same h (fun q => by simp) fun q n i => ?_
    rcases expireQuarantine_entry e i s with hs | ⟨rfl, ⟨x, hx, hq⟩, hs⟩
    · rw [hs]
    · obtain ⟨-, -, -, hd, -⟩ := hl i x hx
      rw [hs, hx]
      exact iff_of_false (unsentIn_none q n) (not_unsentIn_of_resolved (hd (.inr hq)).1 q n)
  | stalled p => exact packetLaw_stall hl h p
  | countedDown =>
    refine packetLaw_of_same h (fun q => by rw [countDown_port]; rfl) fun q n e => ?_
    rw [countDown_entry]
    cases s.entry e with
    | none => exact Iff.rfl
    | some x => exact unsentIn_congr (x := x) (y := x.tick) rfl (fun _ => Iff.rfl) q n
  | opened p | stored p r | discarded p | stray p | credited p i | creditSent p l | completionSent p a rest q l
  | headWaits p | taken p b =>
    exact packetLaw_of_frame h (fun q => State.setPort_egress rfl)
      (fun e => by simp [countDiscard, countStray, headWaiting])
  | _ => exact packetLaw_of_frame h (fun q => by simp) (fun e => by first | rfl | simp)

/-- Settles O54: both laws are kept by every change, the packets' one with the entries' help. -/
theorem stepKeepsEntriesAndPackets : Obligations.StepKeepsEntriesAndPackets := by
  intro s t hl he hstep
  obtain ⟨hl', hp⟩ := step_keeps (P := fun u => EntryLaw u ∧ PacketLaw u)
    (fun _ _ _ hc hu => ⟨hc.keeps_entryLaw hu.1, hc.keeps_packetLaw hu.1 hu.2⟩) ⟨hl, (egressLaw_iff hl).1 he⟩ hstep
  exact ⟨hl', (egressLaw_iff hl').2 hp⟩

end Sys2Proof.Machine
end

section
/-! The counts of the request table: charges, the done order and the reservation (R43, R62, R74, R90). -/

namespace Sys2Proof.Machine

open Sys2Proof.Safety

variable {c : Option Instr}

/-! ## The counts, entry by entry -/

/-- Does a DONE entry stand in the place? -/
def doneIn (o : Option Entry) : Bool := o.any (fun x => decide (x.state = .done))

/-- Does an entry of direction `d` stand in the place? -/
def usedIn (d : Dir) (o : Option Entry) : Bool := o.any (fun x => decide (x.dir = d))

/-- How many places of the table satisfy `f`. -/
def countEntries (f : Option Entry → Bool) (s : State) : Nat := allEntries.countP (fun e => f (s.entry e))

theorem countEntries_eq (f : Option Entry → Bool) (s : State) : s.entries.toList.countP f = countEntries f s := by
  rw [State.entries_toList, List.countP_map]
  rfl

theorem inUse_eq_countEntries (s : State) (d : Dir) : s.inUse d = countEntries (usedIn d) s := by
  rw [← countEntries_eq]
  refine congrArg (List.countP · s.entries.toList) (funext fun o => ?_)
  cases o <;> rfl

theorem chargedTo_none (d : Dir) (w : Fin 16) : chargedTo d w none = false := rfl

theorem chargedTo_some (d : Dir) (w : Fin 16) (x : Entry) :
    chargedTo d w (some x) = true ↔ (d = x.dir ∧ w = x.window) ∧ x.state ≠ .quarantined := by
  rw [eq_comm (a := d), eq_comm (a := w)]
  simp [chargedTo]

/-- The laws of the counts (R43, R62, R74, R90). -/
def TableCounts (s : State) : Prop := ChargeLaw s ∧ DoneLaw s ∧ ReserveLaw s

theorem doneLaw_iff (s : State) : DoneLaw s ↔ s.doneOrder.Nodup ∧ ∀ e, e ∈ s.doneOrder ↔ doneIn (s.entry e) = true := by
  refine and_congr Iff.rfl (forall_congr' fun e => iff_congr Iff.rfl ?_)
  cases s.entry e <;> simp [doneIn]

/-! ## One place changed -/

theorem countP_change {α : Type} [DecidableEq α] {l : List α} (hn : l.Nodup) {a : α} (ha : a ∈ l) {f g : α → Bool}
    (h : ∀ b, b ≠ a → f b = g b) :
    l.countP f + (if g a then 1 else 0) = l.countP g + (if f a then 1 else 0) := by
  induction l with
  | nil => cases ha
  | cons b l ih =>
    obtain ⟨hb, hl⟩ := List.nodup_cons.1 hn
    rw [List.countP_cons, List.countP_cons]
    by_cases hab : b = a
    · subst hab
      have hrest : l.countP f = l.countP g :=
        List.countP_congr fun i hi => by rw [h i (fun hib => hb (hib ▸ hi))]
      omega
    · have := ih hl ((List.mem_cons.1 ha).resolve_left fun hab' => hab hab'.symm)
      rw [h b hab]
      omega

/-- A count of the table after one place has changed. -/
theorem countEntries_change {s t : State} {e : Fin 64} (h : ∀ i, i ≠ e → t.entry i = s.entry i) (f : Option Entry → Bool) :
    countEntries f t + (if f (s.entry e) then 1 else 0) = countEntries f s + (if f (t.entry e) then 1 else 0) :=
  countP_change (f := fun i => f (t.entry i)) (g := fun i => f (s.entry i)) (List.nodup_finRange 64)
    (List.mem_finRange e) fun i hi => by rw [h i hi]

theorem countEntries_mono {f : Option Entry → Bool} {s t : State}
    (h : ∀ e, f (t.entry e) = true → f (s.entry e) = true) : countEntries f t ≤ countEntries f s :=
  List.countP_mono_left fun e _ he => h e he

/-! ## Changes that no count sees -/

/-- What the counts see of a place is kept, or an entry that only the reservation counts is gone. -/
structure CountsKept (o o' : Option Entry) : Prop where
  charged : ∀ d w, chargedTo d w o' = chargedTo d w o
  done : doneIn o' = doneIn o
  used : ∀ d, usedIn d o' = true → usedIn d o = true

theorem CountsKept.refl (o : Option Entry) : CountsKept o o := ⟨fun _ _ => rfl, rfl, fun _ => id⟩

/-- An entry changed in nothing that is counted. -/
theorem CountsKept.of_some {x y : Entry} (hd : y.dir = x.dir) (hw : y.window = x.window)
    (hs : y.state = x.state ∨
      (x.state = .pending ∨ x.state = .issued) ∧ (y.state = .pending ∨ y.state = .issued)) :
    CountsKept (some x) (some y) where
  charged d w := by
    rw [Bool.eq_iff_iff, chargedTo_some, chargedTo_some, hd, hw]
    refine and_congr Iff.rfl ?_
    rcases hs with hs | ⟨hx | hx, hy | hy⟩
    · rw [hs]
    all_goals simp [hx, hy]
  done := by
    rcases hs with hs | ⟨hx | hx, hy | hy⟩ <;> simp [doneIn, *]
  used d := by simp [usedIn, hd]

/-- A QUARANTINED entry freed (R87, R95). -/
theorem CountsKept.of_freed {x : Entry} (h : x.state = .quarantined) : CountsKept (some x) none where
  charged d w := by simp [chargedTo, h]
  done := by simp [doneIn, h]
  used d := by simp [usedIn]

/-- The reservation is kept where no direction uses more and the reserves stand. -/
theorem reserveLaw_of_le {s t : State} (h : ReserveLaw s) (hu : ∀ x, t.inUse x ≤ s.inUse x)
    (hr : ∀ x, t.reserve x = s.reserve x) : ReserveLaw t := by
  obtain ⟨hin, hd, hup⟩ := h
  refine ⟨fun x => ?_, (hr .down).le.trans hd, (hr .up).le.trans hup⟩
  have := hin x
  have := hu x
  have := hu (otherDir x)
  rw [hr]
  omega

/-- Charges are counted as before where no entry's charge changes, and no window is newly DISABLED with a charge (R43). -/
theorem chargeLaw_of_charged {s t : State} (h : ChargeLaw s)
    (he : ∀ e d w, chargedTo d w (t.entry e) = chargedTo d w (s.entry e))
    (hw : ∀ d w, (t.window d w).inFlight = (s.window d w).inFlight ∧
      ((t.window d w).state = .disabled → (s.window d w).state = .disabled ∨ (s.window d w).inFlight = 0)) : ChargeLaw t := by
  intro d w
  obtain ⟨hcount, hoff⟩ := h d w
  obtain ⟨hin, hstate⟩ := hw d w
  rw [hin, hcount, countEntries_eq, countEntries_eq]
  refine ⟨List.countP_congr fun e _ => by rw [he], fun hs => ?_⟩
  rw [← countEntries_eq, ← hcount]
  exact (hstate hs).elim hoff id

theorem tableCounts_of_kept {s t : State} (h : TableCounts s) (he : ∀ e, CountsKept (s.entry e) (t.entry e))
    (hw : ∀ d w, (t.window d w).inFlight = (s.window d w).inFlight ∧
      ((t.window d w).state = .disabled → (s.window d w).state = .disabled ∨ (s.window d w).inFlight = 0))
    (hd : t.doneOrder = s.doneOrder) (hr : ∀ x, t.reserve x = s.reserve x) : TableCounts t := by
  obtain ⟨hcharge, hdone, hreserve⟩ := h
  obtain ⟨hnodup, hmem⟩ := (doneLaw_iff s).1 hdone
  refine ⟨chargeLaw_of_charged hcharge (fun e => (he e).charged) hw, (doneLaw_iff t).2 ⟨hd ▸ hnodup, fun e => ?_⟩,
    reserveLaw_of_le hreserve (fun x => ?_) hr⟩
  · rw [hd, hmem, (he e).done]
  · rw [inUse_eq_countEntries, inUse_eq_countEntries]
    exact countEntries_mono fun e => (he e).used x

theorem tableCounts_of_frame {s t : State} (h : TableCounts s) (he : ∀ e, t.entry e = s.entry e)
    (hw : ∀ d w, t.window d w = s.window d w) (hd : t.doneOrder = s.doneOrder) (hr : ∀ x, t.reserve x = s.reserve x) :
    TableCounts t :=
  tableCounts_of_kept h (fun e => by rw [he]; exact .refl _) (fun d w => by rw [hw]; exact ⟨rfl, .inl⟩) hd hr

/-- An entry changed in nothing that is counted. -/
theorem tableCounts_setEntry {s : State} (h : TableCounts s) {e : Fin 64} {x y : Entry} (hx : s.entry e = some x)
    (hk : CountsKept (some x) (some y)) : TableCounts (s.setEntry e (some y)) := by
  refine tableCounts_of_kept h (fun i => ?_) (fun d w => ?_) rfl (fun z => State.reserve_setEntry ..)
  · rw [State.entry_setEntry]
    split
    · next hi => rw [hi, hx]; exact hk
    · exact .refl _
  · rw [State.window_setEntry]
    exact ⟨rfl, .inl⟩

/-! ## Deliveries and results -/

/-- A delivered entry is neither charged nor DONE (R90 to R93). -/
theorem Entry.delivered_uncounted (y : Entry) (d : Dir) (w : Fin 16) :
    chargedTo d w y.delivered = false ∧ doneIn y.delivered = false := by
  unfold Entry.delivered
  split <;> simp [chargedTo, doneIn]

theorem deliver_entry_other {e i : Fin 64} {y : Entry} {s : State} (hi : i ≠ e) : (deliver e y s).entry i = s.entry i := by
  rw [deliver_entry_eq, if_neg hi]

/-- A delivery ends the charge of its entry (R43, R37). -/
theorem chargeLaw_deliver {s : State} (h : ChargeLaw s) {e : Fin 64} {x y : Entry} (hx : s.entry e = some x)
    (hs : x.state ≠ .quarantined) (hd : y.dir = x.dir) (hw : y.window = x.window) : ChargeLaw (deliver e y s) := by
  have hself : (deliver e y s).entry e = y.delivered := by rw [deliver_entry_eq, if_pos rfl]
  intro d w
  obtain ⟨hcount, hoff⟩ := h d w
  have hchange := countEntries_change (s := s) (t := deliver e y s) (fun i hi => deliver_entry_other hi) (chargedTo d w)
  rw [hself, (y.delivered_uncounted d w).1, hx] at hchange
  rw [countEntries_eq] at hcount ⊢
  rw [deliver_window, releaseWindow, State.window_setWindow, hd, hw]
  by_cases hdw : d = x.dir ∧ w = x.window
  · have hcharged : chargedTo d w (some x) = true := (chargedTo_some d w x).2 ⟨hdw, hs⟩
    rw [hcharged] at hchange
    rw [if_pos hdw]
    obtain ⟨rfl, rfl⟩ := hdw
    simp only [Window.release, if_true] at hchange ⊢
    refine ⟨by simp at hchange; omega, fun hstate => ?_⟩
    split at hstate
    · next hdrain => exact hdrain.2
    · rw [hoff hstate]
  · have hnot : chargedTo d w (some x) = false := by
      rw [← Bool.not_eq_true, chargedTo_some]
      exact fun hc => hdw hc.1
    rw [hnot] at hchange
    rw [if_neg hdw]
    exact ⟨by simp at hchange; omega, hoff⟩

/-- A delivery takes its entry out of the done order too, and no direction uses more entries (R90 to R93). -/
theorem tableCounts_deliver {s : State} (h : TableCounts s) {e : Fin 64} {x y : Entry} (hx : s.entry e = some x)
    (hs : x.state ≠ .quarantined) (hd : y.dir = x.dir) (hw : y.window = x.window) : TableCounts (deliver e y s) := by
  obtain ⟨hcharge, hdone, hreserve⟩ := h
  obtain ⟨hnodup, hmem⟩ := (doneLaw_iff s).1 hdone
  have hself : (deliver e y s).entry e = y.delivered := by rw [deliver_entry_eq, if_pos rfl]
  refine ⟨chargeLaw_deliver hcharge hx hs hd hw, (doneLaw_iff _).2 ⟨hnodup.erase e, fun i => ?_⟩,
    reserveLaw_of_le hreserve (fun z => ?_) fun z => ?_⟩
  · rw [deliver_doneOrder, hnodup.mem_erase_iff]
    by_cases hi : i = e
    · subst hi
      simp [hself, (y.delivered_uncounted .down 0).2]
    · rw [deliver_entry_other hi, hmem]
      simp [hi]
  · rw [inUse_eq_countEntries, inUse_eq_countEntries]
    refine countEntries_mono fun i hu => ?_
    by_cases hi : i = e
    · subst hi
      rw [hself] at hu
      cases hy : y.delivered with
      | none => rw [hy] at hu; cases hu
      | some a =>
        rw [hy] at hu
        rw [hx]
        have hdir := (Entry.delivered_some hy).1
        simpa [usedIn, hdir, hd] using hu
    · rwa [deliver_entry_other hi] at hu
  · exact (deliver_tableChange e y s).reserve z

/-- A failure applied to a window leaves its charge, and makes no window DISABLED (R40). -/
theorem applyFailure_charges (x : Entry) (st : Status) (s : State) (d : Dir) (w : Fin 16) :
    ((applyFailure x st s).1.window d w).inFlight = (s.window d w).inFlight ∧
      (((applyFailure x st s).1.window d w).state = .disabled →
        (s.window d w).state = .disabled ∨ (s.window d w).inFlight = 0) := by
  simp only [applyFailure, State.window_setWindow]
  split
  · next hdw =>
    obtain ⟨rfl, rfl⟩ := hdw
    refine ⟨by rw [Window.applyFailure_eq], fun hs => .inl ?_⟩
    unfold Window.applyFailure at hs
    split at hs
    · cases hs
    · assumption
    all_goals split at hs <;> simp_all
  · exact ⟨rfl, .inl⟩

theorem chargeLaw_applyFailure {s : State} (h : ChargeLaw s) (x : Entry) (st : Status) : ChargeLaw (applyFailure x st s).1 :=
  chargeLaw_of_charged h (fun e d w => by rw [applyFailure_entry]) (applyFailure_charges x st s)

theorem tableCounts_applyFailure {s : State} (h : TableCounts s) (x : Entry) (st : Status) :
    TableCounts (applyFailure x st s).1 :=
  tableCounts_of_kept h (fun e => by rw [applyFailure_entry]; exact .refl _) (applyFailure_charges x st s) (by simp [applyFailure])
    (fun y => by simp [applyFailure])

/-- Every result keeps the charges counted: a DONE entry is charged still, a delivered one no longer (R43). -/
theorem chargeLaw_takeResult {s : State} (h : ChargeLaw s) (e : Fin 64) : ChargeLaw (takeResult e s).1 := by
  rcases takeResult_cases e s with ⟨-, hr⟩ | ⟨x, hx, hdue, hcase⟩
  · rw [hr]
    exact h
  have hnq : x.state ≠ .quarantined := by rcases (x.due_iff.1 hdue).1 with hs | hs <;> simp [hs]
  rcases hcase with ⟨-, -, hr⟩ | ⟨-, ⟨hr, -⟩ | ⟨f, -, -, hr⟩⟩ <;> rw [hr]
  · refine chargeLaw_of_charged h (fun i d w => ?_) fun d w => ?_
    · rw [State.entry_doneOrder, State.entry_setEntry]
      split
      · next hi =>
        rw [hi, hx, Bool.eq_iff_iff, chargedTo_some, chargedTo_some]
        simp [hnq]
      · rfl
    · rw [State.window_doneOrder, State.window_setEntry]
      exact ⟨rfl, .inl⟩
  · exact chargeLaw_deliver h hx hnq rfl rfl
  · exact chargeLaw_deliver (chargeLaw_applyFailure h x _) (by rw [applyFailure_entry, hx]) hnq rfl rfl

theorem tableCounts_takeResult {s : State} (h : TableCounts s) (e : Fin 64) : TableCounts (takeResult e s).1 := by
  have hcharge := chargeLaw_takeResult h.1 e
  rcases takeResult_cases e s with ⟨-, hr⟩ | ⟨x, hx, hdue, hcase⟩
  · rw [hr]
    exact h
  have hopen := (x.due_iff.1 hdue).1
  have hnq : x.state ≠ .quarantined := by rcases hopen with hs | hs <;> simp [hs]
  rcases hcase with ⟨-, -, hr⟩ | ⟨-, ⟨hr, -⟩ | ⟨f, -, -, hr⟩⟩ <;> rw [hr]
  · obtain ⟨-, hdone, hreserve⟩ := h
    obtain ⟨hnodup, hmem⟩ := (doneLaw_iff s).1 hdone
    have hnot : e ∉ s.doneOrder := by
      rw [hmem, hx]
      rcases hopen with hs | hs <;> simp [doneIn, hs]
    have hentry : ∀ (l : List (Fin 64)) (i : Fin 64), State.entry { s.setEntry e (some { x.withResult with state := .done })
        with doneOrder := l } i = if i = e then some { x.withResult with state := .done } else s.entry i := by
      intro l i
      rw [State.entry_doneOrder, State.entry_setEntry]
    refine ⟨by rwa [hr] at hcharge, (doneLaw_iff _).2 ⟨List.nodup_append.2 ⟨hnodup, List.nodup_singleton e, ?_⟩, fun i => ?_⟩, ?_⟩
    · intro a ha b hb hab
      rw [List.mem_singleton.1 hb] at hab
      exact hnot (hab ▸ ha)
    · rw [hentry, List.mem_append, List.mem_singleton, hmem]
      by_cases hi : i = e
      · simp [hi, doneIn]
      · simp [hi]
    · refine reserveLaw_of_le hreserve (fun z => ?_) (fun z => by cases z <;> rfl)
      rw [inUse_eq_countEntries, inUse_eq_countEntries]
      refine countEntries_mono fun i hu => ?_
      rw [hentry] at hu
      split at hu
      · next hi => subst hi; rw [hx]; exact hu
      · exact hu
  · exact tableCounts_deliver h hx hnq rfl rfl
  · exact tableCounts_deliver (tableCounts_applyFailure h x _) (by rw [applyFailure_entry, hx]) hnq rfl rfl

theorem tableCounts_takeResults (es : List (Fin 64)) {s : State} (h : TableCounts s) : TableCounts (takeResults es s).1 := by
  rw [takeResults_fst]
  induction es generalizing s with
  | nil => exact h
  | cons e es ih => exact ih (tableCounts_takeResult h e)

/-! ## Stalls and link losses -/

theorem foldl_setEntry_doneOrder (l : List (Fin 64)) (f : State → Fin 64 → Option Entry) (s : State) :
    (l.foldl (fun s e => s.setEntry e (f s e)) s).doneOrder = s.doneOrder := by
  induction l generalizing s with
  | nil => rfl
  | cons e l ih => rw [List.foldl_cons, ih]; rfl

@[simp] theorem mapEntries_doneOrder (es : List (Fin 64)) (f : Entry → Entry) (s : State) :
    (mapEntries es f s).doneOrder = s.doneOrder := foldl_setEntry_doneOrder es _ s

/-- Entries changed in place in nothing that is counted. -/
theorem tableCounts_mapEntries {s : State} (h : TableCounts s) {es : List (Fin 64)} (hn : es.Nodup) {f : Entry → Entry}
    (hf : ∀ e ∈ es, ∀ x, s.entry e = some x → CountsKept (some x) (some (f x))) : TableCounts (mapEntries es f s) := by
  refine tableCounts_of_kept h (fun e => ?_) (fun d w => by rw [mapEntries_window]; exact ⟨rfl, .inl⟩) (by simp)
    (mapEntries_tableChange es f s).reserve
  rw [mapEntries_entry hn]
  split
  · next he =>
    cases hx : s.entry e with
    | none => exact .refl _
    | some x => exact hf e he x hx
  · exact .refl _

theorem tableCounts_stallEntries {s : State} (h : TableCounts s) (ks : List EgressPacket) :
    TableCounts (stallEntries ks s).1 := by
  rw [stallEntries_eq]
  refine tableCounts_takeResults _ (tableCounts_mapEntries h (stalledOnes_nodup ks s) fun e he x hx => ?_)
  obtain ⟨-, y, hy, hpend⟩ := mem_stalledOnes.1 he
  rw [hx] at hy
  cases hy
  exact .of_some rfl rfl (.inr ⟨.inl hpend, .inr rfl⟩)

theorem lostMarked_doneOrder (p : Port) (s : State) : (lostMarked p s).doneOrder = s.doneOrder := by
  rw [lostMarked, foldl_setEntry_doneOrder (f := fun _ _ => none), mapEntries_doneOrder, mapEntries_doneOrder]

theorem lostMarked_window (p : Port) (s : State) (d : Dir) (w : Fin 16) : (lostMarked p s).window d w = s.window d w := by
  rw [lostMarked, foldl_setEntry_window (f := fun _ _ => none), mapEntries_window, mapEntries_window]

theorem lostMarked_tableChange (p : Port) (s : State) : TableChange s (lostMarked p s) :=
  ((mapEntries_tableChange _ _ s).trans (mapEntries_tableChange _ _ _)).trans
    (.foldl _ _ (fun s e => .setEntry s e none) _)

theorem tableCounts_forwardLinkLoss {s : State} (h : TableCounts s) (n : Nat) (p : Port) :
    TableCounts (forwardLinkLoss n p s).1 := by
  rw [forwardLinkLoss_eq]
  refine tableCounts_takeResults _ (tableCounts_of_kept h (fun e => ?_)
    (fun d w => by rw [lostMarked_window]; exact ⟨rfl, .inl⟩) (lostMarked_doneOrder p s) (lostMarked_tableChange p s).reserve)
  rw [lostMarked_entry]
  cases s.entry e with
  | none => exact .refl _
  | some x =>
    rw [Option.bind_some]
    split
    · unfold Entry.lossMarked
      split
      · exact .of_some rfl rfl (.inl rfl)
      · exact .of_some rfl rfl (.inl rfl)
      · exact .of_some rfl rfl (.inl rfl)
      · next hs => exact .of_freed hs
    · exact .refl _

theorem tableCounts_deliverOrphans {es : List (Fin 64)} (hn : es.Nodup) {s : State} (h : TableCounts s)
    (hs : ∀ e ∈ es, ∀ x, s.entry e = some x → x.state ≠ .quarantined) : TableCounts (deliverOrphans es s) := by
  induction es generalizing s with
  | nil => exact h
  | cons e es ih =>
    obtain ⟨he, hes⟩ := List.nodup_cons.1 hn
    rw [deliverOrphans, List.foldl_cons, ← deliverOrphans]
    cases hx : s.entry e with
    | none => exact ih hes h fun i hi => hs i (List.mem_cons_of_mem e hi)
    | some x =>
      refine ih hes (tableCounts_deliver h hx (hs e (by simp) x hx) rfl rfl) fun i hi y hy => ?_
      rw [deliver_entry_eq, if_neg (fun hie : i = e => he (hie ▸ hi))] at hy
      exact hs i (List.mem_cons_of_mem e hi) y hy

theorem tableCounts_originLinkLoss {s : State} (h : TableCounts s) (p : Port) : TableCounts (originLinkLoss p s) := by
  rw [originLinkLoss_eq]
  refine tableCounts_deliverOrphans (arrivedOnes_nodup _ _ _)
    (tableCounts_mapEntries h (arrivedOnes_nodup _ _ _) fun e _ x _ => .of_some rfl rfl (.inl rfl)) fun e he x hx => ?_
  obtain ⟨y, hy, -, hdone⟩ := mem_arrivedOnes.1 he
  have hstate : y.state = .done := of_decide_eq_true hdone
  rw [mapEntries_entry (arrivedOnes_nodup _ _ _), hy] at hx
  split at hx
  · cases hx; simp [hstate]
  · cases hx; simp [hstate]

@[simp] theorem State.entry_managers (s : State) (m : Vector ManagerEntry 4) (e : Fin 64) :
    State.entry { s with managers := m } e = s.entry e := rfl
@[simp] theorem State.reserve_notices (s : State) (u : NoticeUnit) (x : Dir) :
    State.reserve { s with notices := u } x = s.reserve x := by cases x <;> rfl
@[simp] theorem State.reserve_managers (s : State) (m : Vector ManagerEntry 4) (x : Dir) :
    State.reserve { s with managers := m } x = s.reserve x := by cases x <;> rfl

theorem tableCounts_locksLinkLoss {s : State} (h : TableCounts s) (p : Port) (n : Nat) :
    TableCounts ((locksLinkLoss p s).drawn n) :=
  tableCounts_of_frame h (fun _ => rfl) (fun d w => by simp) rfl (fun x => by cases x <;> rfl)

/-- A flushed port changes nothing that is counted. -/
theorem tableCounts_flushed {s : State} (h : TableCounts s) (p : Port) (x : PortState) (ns : List StampedNotice) :
    TableCounts (countFlushed ns (s.setPort p x)) := by
  refine tableCounts_of_frame h (fun e => by simp) (fun d w => by simp) (by simp [countFlushed]) (fun y => ?_)
  rw [← State.reserve_setPort s p x]
  cases y <;> rfl

theorem tableCounts_linkLoss {s : State} (h : TableCounts s) (p : Port) : TableCounts (linkLossState p s) :=
  tableCounts_locksLinkLoss
    (tableCounts_originLinkLoss (tableCounts_forwardLinkLoss (tableCounts_flushed h p _ _) s.freeNext p) p) p 3

/-! ## A forward (R62, R64) -/

theorem tableCounts_forward {s : State} (h : TableCounts s) {p : Port} {r : Request} {w : Fin 16}
    (hactive : (s.window (dirOf p) w).state = .active) (ha : atHand p r (.forward w) s = true) :
    TableCounts (forward p r w s) := by
  cases hpass : passes (s.window (dirOf p) w) r with
  | true =>
    rw [forward_of_pass hpass]
    refine tableCounts_of_kept h (fun e => by simpa using .refl _) (fun d v => ?_) (by simp [Machine.enqueue])
      (fun x => by simp [Machine.enqueue])
    rw [enqueue_window, State.window_setWindow]
    split
    · next hdv => obtain ⟨rfl, rfl⟩ := hdv; exact ⟨rfl, .inl⟩
    · exact ⟨rfl, .inl⟩
  | false =>
    cases hfree : s.firstFree with
    | none => simpa [forward, hpass, hfree] using h
    | some e =>
      rw [forward_of_entry hpass hfree]
      have hnone := firstFree_some hfree
      obtain ⟨hcharge, hdone, hreserve⟩ := h
      obtain ⟨hnodup, hmem⟩ := (doneLaw_iff s).1 hdone
      generalize hx : newEntry p (entryKindOf r.kind) r w (s.window (dirOf p) w)
        ((s.window (dirOf p) w).translate r.address) = x
      have hdir : x.dir = dirOf p := by rw [← hx]; rfl
      have hwin : x.window = w := by rw [← hx]; rfl
      have hstate : x.state = .pending := by rw [← hx]; rfl
      generalize ht : enqueue (forwardPort (dirOf p)) (entryPackets e (s.window (dirOf p) w) r)
        ((s.setWindow (dirOf p) w (s.window (dirOf p) w).charge).setEntry e (some x)) = t
      have hother : ∀ i, i ≠ e → t.entry i = s.entry i := fun i hi => by rw [← ht]; simp [State.entry_setEntry, hi]
      have hself : t.entry e = some x := by rw [← ht]; simp
      have hdoneOrder : t.doneOrder = s.doneOrder := by rw [← ht]; simp [Machine.enqueue]
      have hres : ∀ y, t.reserve y = s.reserve y := fun y => by rw [← ht]; simp [Machine.enqueue]
      have hwindow : ∀ d v, t.window d v = if d = dirOf p ∧ v = w then (s.window (dirOf p) w).charge else s.window d v :=
        fun d v => by rw [← ht]; simp [State.window_setWindow]
      have huse : ∀ y, t.inUse y = s.inUse y + if y = dirOf p then 1 else 0 := by
        intro y
        have hchange := countEntries_change hother (usedIn y)
        rw [hself, hnone] at hchange
        rw [inUse_eq_countEntries, inUse_eq_countEntries]
        simpa [usedIn, hdir, eq_comm] using hchange
      refine ⟨fun d v => ?_, (doneLaw_iff t).2 ⟨hdoneOrder ▸ hnodup, fun i => ?_⟩, fun y => ?_,
        (hres .down).le.trans hreserve.2.1, (hres .up).le.trans hreserve.2.2⟩
      · obtain ⟨hcount, hoff⟩ := hcharge d v
        have hchange := countEntries_change hother (chargedTo d v)
        rw [hself, hnone, chargedTo_none] at hchange
        rw [countEntries_eq] at hcount ⊢
        rw [hwindow]
        by_cases hdv : d = dirOf p ∧ v = w
        · have hcharged : chargedTo d v (some x) = true := (chargedTo_some d v x).2 ⟨by rwa [hdir, hwin], by simp [hstate]⟩
          rw [hcharged] at hchange
          rw [if_pos hdv]
          obtain ⟨rfl, rfl⟩ := hdv
          refine ⟨?_, fun hs => ?_⟩
          · simp only [Window.charge]
            simp at hchange
            omega
          · rw [Window.charge, hactive] at hs
            cases hs
        · have hnot : chargedTo d v (some x) = false := by
            rw [← Bool.not_eq_true, chargedTo_some, hdir, hwin]
            exact fun hc => hdv hc.1
          rw [hnot] at hchange
          rw [if_neg hdv]
          exact ⟨by simp at hchange; omega, hoff⟩
      · rw [hdoneOrder, hmem]
        by_cases hi : i = e
        · subst hi; simp [hself, hnone, doneIn, hstate]
        · rw [hother i hi]
      · have hin := hreserve.1
        have hroom : s.inUse (dirOf p) + 1 + max (s.reserve (otherDir (dirOf p))) (s.inUse (otherDir (dirOf p))) ≤ 64 := by
          simp only [atHand, hpass, State.withinReservation, Bool.false_or, Bool.and_eq_true, decide_eq_true_eq] at ha
          exact ha.2.1
        have hy := hin y
        rw [hres, huse, huse]
        rcases (show y = dirOf p ∨ (y ≠ dirOf p ∧ otherDir y = dirOf p ∧ y = otherDir (dirOf p)) by
          cases y <;> cases p <;> decide) with rfl | ⟨hne, hoth, heq⟩
        · have hne : otherDir (dirOf p) ≠ dirOf p := by cases p <;> decide
          simp only [if_true, if_neg hne]
          omega
        · rw [hoth] at hy ⊢
          rw [← heq] at hroom
          simp only [if_true, if_neg hne]
          omega

/-! ## Every change keeps the counts -/

@[simp] theorem placeOutbox_doneOrder (k : Fin 8) (s : State) : (placeOutbox k s).doneOrder = s.doneOrder := by
  unfold placeOutbox
  split <;> simp

@[simp] theorem acquire_doneOrder (k : Fin 8) (node : Node) (p : Port) (tag : Tag) (s : State) :
    (acquire k node p tag s).doneOrder = s.doneOrder := by
  simp only [acquire]
  split
  · simp
  · split
    · simp
    · split
      · simp
      · split <;> simp

@[simp] theorem release_doneOrder (k : Fin 8) (node : Node) (p : Port) (tag : Tag) (g : Word32) (s : State) :
    (release k node p tag g s).doneOrder = s.doneOrder := by
  simp only [release]
  split <;> simp

@[simp] theorem breakHold_doneOrder (k : Fin 8) (s : State) : (breakHold k s).doneOrder = s.doneOrder := by
  simp only [breakHold]
  split <;> simp

@[simp] theorem expireLease_doneOrder (k : Fin 8) (s : State) : (expireLease k s).1.doneOrder = s.doneOrder := by
  simp only [expireLease]
  split <;> simp

@[simp] theorem expireWait_doneOrder (k : Fin 8) (node : Node) (p : Port) (s : State) :
    (expireWait k node p s).doneOrder = s.doneOrder := by
  simp only [expireWait]
  split <;> simp

@[simp] theorem expireQuarantine_doneOrder (e : Fin 64) (s : State) : (expireQuarantine e s).doneOrder = s.doneOrder := by
  unfold expireQuarantine
  split
  · rfl
  · split <;> simp

theorem tableCounts_softReset {s : State} (h : TableCounts s) : TableCounts (softReset s) := by
  have hzero : ∀ f : Option Entry → Bool, f none = false → countEntries f (softReset s) = 0 := by
    intro f hf
    simp [countEntries, hf]
  obtain ⟨-, -, hin, hd, hu⟩ := h
  refine ⟨fun d w => ?_, (doneLaw_iff _).2 ⟨List.nodup_nil, fun e => ?_⟩, fun x => ?_, hd, hu⟩
  · rw [countEntries_eq, hzero _ (chargedTo_none d w), softReset_window]
    exact ⟨rfl, fun _ => rfl⟩
  · rw [softReset_entry]
    exact iff_of_false (by simp [softReset]) (by simp [doneIn])
  · rw [inUse_eq_countEntries, inUse_eq_countEntries, hzero _ rfl, hzero _ rfl]
    have : (softReset s).reserve (otherDir x) ≤ 32 := by cases x; exact hu; exact hd
    omega

/-- A window rewritten with its charge as it was. -/
theorem tableCounts_setWindow {s : State} (h : TableCounts s) {d : Dir} {w : Fin 16} {x : Window}
    (hin : x.inFlight = (s.window d w).inFlight)
    (hs : x.state = .disabled → (s.window d w).state = .disabled ∨ (s.window d w).inFlight = 0) :
    TableCounts (s.setWindow d w x) := by
  refine tableCounts_of_kept h (fun e => by simpa using .refl _) (fun d' w' => ?_) (by simp) (fun y => by simp)
  rw [State.window_setWindow]
  split
  · next hdw => obtain ⟨rfl, rfl⟩ := hdw; exact ⟨hin, hs⟩
  · exact ⟨rfl, .inl⟩

theorem FieldWrite.keeps_tableCounts {s t : State} (hw : FieldWrite s t) (h : TableCounts s) : TableCounts t := by
  cases hw with
  | config d w x hs hx =>
    exact tableCounts_setWindow h (by rw [hx]) fun _ => .inl hs
  | hits d w => exact tableCounts_setWindow h rfl .inl
  | enable d w => exact tableCounts_setWindow h rfl fun hs => by cases hs
  | close d w =>
    refine tableCounts_setWindow h ?_ fun hs => ?_
    · unfold Window.close
      split <;> rfl
    · unfold Window.close at hs
      split at hs
      · dsimp only at hs
        split at hs
        · next hz => exact .inr hz
        · cases hs
      · dsimp only at hs
        split at hs
        · next hz => exact .inr hz
        · cases hs
      · exact .inl hs
      · exact .inl hs
  | clearFault d w =>
    refine tableCounts_setWindow h rfl fun hs => .inl ?_
    simp only [Window.clearFault] at hs
    split at hs
    · cases hs
    · exact hs
  | reserve y v hv hsum hroom =>
    obtain ⟨hcharge, hdone, hin, hd, hu⟩ := h
    refine ⟨fun d w => by simpa using hcharge d w, (doneLaw_iff _).2 (by simpa using (doneLaw_iff s).1 hdone), fun x => ?_,
      ?_, ?_⟩
    · rw [State.inUse_setReserve, State.inUse_setReserve, State.reserve_setReserve]
      have hx := hin x
      split
      · next hy =>
        have hxy : x = otherDir y := by rw [← hy]; cases x <;> rfl
        rw [hxy] at hx ⊢
        have hback : otherDir (otherDir y) = y := by cases y <;> rfl
        rw [hback]
        exact hroom
      · exact hx
    · cases y
      · exact hv
      · exact hd
    · cases y
      · exact hu
      · exact hv
  | reset => exact tableCounts_softReset h
  | _ => refine tableCounts_of_frame h (fun e => ?_) (fun d w => ?_) ?_ (fun x => ?_) <;> simp [(breakHold_settingsKept _ s).reserve]

theorem Change.keeps_tableCounts {s t : State} (hc : Change c s t) (hl : EntryLaw s) (h : TableCounts s) : TableCounts t := by
  cases hc with
  | powerUp =>
    obtain ⟨-, -, -, -, -, -, hcharge, hreserve, -, -, hdone, -⟩ := resetSatisfiesEveryLaw
    exact tableCounts_of_frame (s := State.reset) ⟨hcharge, hdone, hreserve⟩ (fun e => rfl)
      (fun d w => by cases d <;> rfl) rfl (fun x => by cases x <;> rfl)
  | closed p => exact tableCounts_linkLoss h p
  | matched p a x g hx hg hm =>
    refine tableCounts_takeResult (tableCounts_setEntry h hx ?_) (tagEntry a.tag)
    rw [resolveSegment_eq]
    exact .of_some rfl rfl (.inl rfl)
  | headSent p k rest =>
    cases k with
    | segment e n q =>
      rcases segmentSent_eq e n (s.setPort p ((s.port p).sendHead (.segment e n q) rest)) with hs | ⟨x, g, hx, hg, hn, hs⟩
      · exact tableCounts_of_frame h (fun i => by rw [departureState, hs]; simp) (fun d w => by simp)
          (by rw [departureState, hs]; simp) (departureState_settingsKept ..).reserve
      · rw [State.entry_setPort] at hx
        rw [departureState, hs]
        have hport : TableCounts (s.setPort p ((s.port p).sendHead (.segment e n q) rest)) :=
          tableCounts_of_frame h (fun i => by simp) (fun d w => by simp) (by simp) (fun y => by simp)
        refine tableCounts_setEntry hport (x := x) (by simpa using hx) (.of_some rfl rfl (.inr ⟨?_, ?_⟩))
        · exact LawfulEntry.open (hl e x hx) (List.mem_of_getElem? hg) (by simp [hn, SegState.resolved])
        · simp only [Entry.departed]
          split <;> simp
    | _ =>
      exact tableCounts_of_frame h (fun i => by simp [departureState]) (fun d w => by simp)
        (by simp [departureState]) (departureState_settingsKept ..).reserve
  | wrote t hw => exact hw.keeps_tableCounts h
  | forwarded p r w _ hactive _ _ ha => exact tableCounts_forward h hactive ha
  | placed p a ha =>
    cases a with
    | outbox k =>
      exact tableCounts_of_frame h (fun e => by simp [placeClaim]) (fun d w => by simp [placeClaim, placeOutbox_window])
        (by simp [placeClaim]) (placeClaim_settingsKept ..).reserve
    | expired k =>
      obtain ⟨b, hb⟩ := nextClaim_stands ha
      exact tableCounts_of_frame h (fun e => by simp [placeClaim]) (fun d w => by simp [placeClaim, placeExpired, hb])
        (by simp [placeClaim, placeExpired, hb]) (placeClaim_settingsKept ..).reserve
    | done e =>
      obtain ⟨-, x, hx, hdone, -⟩ := nextClaim_stands ha
      simp only [placeClaim, deliverDone, hx]
      exact tableCounts_deliver (tableCounts_of_frame h (fun i => by simp) (fun d w => by simp) (by simp)
        (place_settingsKept ..).reserve) (by simpa using hx) (by simp [hdone]) rfl rfl
  | timedOut e =>
    by_cases hnone : ∀ x, s.entry e = some x → x.deadline = none
    · rw [expireDeadline_of_none hnone]
      exact h
    · simp only [not_forall] at hnone
      obtain ⟨x, hx, hd⟩ := hnone
      obtain ⟨d, hd'⟩ := Option.ne_none_iff_exists'.1 hd
      have hstruck : TableCounts (struckState e x d s) := by
        have hport : TableCounts (s.setPort (forwardPort x.dir) ((s.port (forwardPort x.dir)).withdraw e)) :=
          tableCounts_of_frame h (fun i => by simp) (fun d w => by simp) (by simp) (fun y => by simp)
        exact tableCounts_setEntry hport (x := x) (by simpa using hx) (.of_some rfl rfl (.inl rfl))
      have htaken := tableCounts_takeResult hstruck e
      rw [expireDeadline_eq hx hd']
      dsimp only
      split
      · exact htaken
      · exact tableCounts_of_frame htaken (fun _ => rfl) (fun d w => by simp) rfl (fun y => by simp)
  | quarantineEnded e =>
    refine tableCounts_of_kept h (fun i => ?_) (fun d w => by rw [expireQuarantine_window]; exact ⟨rfl, .inl⟩) (by simp)
      (expireQuarantine_settingsKept ..).reserve
    rcases expireQuarantine_entry e i s with hs | ⟨rfl, ⟨x, hx, hq⟩, hs⟩ <;> rw [hs]
    · exact .refl _
    · rw [hx]
      exact .of_freed hq
  | stalled p =>
    unfold expireStall
    cases (s.port p).stallTimer with
    | none => exact h
    | some n =>
      exact tableCounts_of_frame (tableCounts_stallEntries (tableCounts_flushed h p _ _) (s.port p).egress) (fun _ => rfl)
        (fun d w => by simp) rfl (fun y => by simp)
  | countedDown =>
    refine tableCounts_of_kept h (fun e => ?_) (fun d w => by rw [countDown_window]; exact ⟨rfl, .inl⟩) rfl (fun x => by simp)
    rw [countDown_entry]
    cases s.entry e with
    | none => exact .refl _
    | some x => exact .of_some rfl rfl (.inl rfl)
  | deasserted straps =>
    exact tableCounts_of_frame h (fun _ => rfl) (fun d w => by cases d <;> rfl) rfl (fun x => by cases x <;> rfl)
  | acquired k node p tag =>
    exact tableCounts_of_frame h (fun e => by simp) (fun d w => by simp [acquire_window]) (by simp)
      (acquire_settingsKept ..).reserve
  | released k node p tag g =>
    exact tableCounts_of_frame h (fun e => by simp) (fun d w => by simp [release_window]) (by simp)
      (release_settingsKept ..).reserve
  | leaseEnded k =>
    exact tableCounts_of_frame h (fun e => by simp) (fun d w => by simp) (by simp) (expireLease_settingsKept k s).reserve
  | waitEnded k node p =>
    exact tableCounts_of_frame h (fun e => by simp) (fun d w => by simp) (by simp) (expireWait_settingsKept ..).reserve
  | _ =>
    refine tableCounts_of_frame h (fun e => ?_) (fun d w => ?_) ?_ (fun x => ?_) <;>
      simp [countDiscard, countStray, headWaiting, take, place, Machine.enqueue]

/-- Settles O55: every change keeps the counts, with the help of the entries' law. -/
theorem stepKeepsTableCounts : Obligations.StepKeepsTableCounts := by
  intro s t hl hcharge hdone hreserve hstep
  exact (step_keeps (P := fun u => EntryLaw u ∧ TableCounts u)
    (fun _ _ _ hc hu => ⟨hc.keeps_entryLaw hu.1, hc.keeps_tableCounts hu.1 hu.2⟩) ⟨hl, hcharge, hdone, hreserve⟩ hstep).2

end Sys2Proof.Machine
end

section
/-! Arrivals and departures at a port (1.4 to 1.7, 4.4, 6.2): each row on a part with nothing else to settle. -/

namespace Sys2Proof.Machine

open Sys2Proof.Safety

/-! ## Requests, CRDs and discarded packets -/

/-- Settles O11: storing and the overrun are the two branches of an arriving request at an open port. -/
theorem requestArrivalStoredOrOverrun : Obligations.RequestArrivalStoredOrOverrun := by
  intro p r s
  have hexec : exec (.requestArrival p r) s = .next (arriveRequest p r s) := rfl
  rw [hexec]
  refine ⟨fun hl hr => ?_, fun hl hr => ?_, fun hl => by rw [arriveRequest, if_pos hl]⟩
  · rw [arriveRequest, if_neg hl, storeRequest, if_pos hr]
  · rw [arriveRequest, if_neg hl, storeRequest, if_neg (by omega)]
    rfl

theorem arriveDiscarded_open {p : Port} {s : State} (hl : (s.port p).link ≠ .down) :
    arriveDiscarded p s = countDiscard p s := if_neg hl

theorem arriveDiscarded_down {p : Port} {s : State} (hl : (s.port p).link = .down) : arriveDiscarded p s = s := if_pos hl

/-- Settles O12: the three rows are the one discard. -/
theorem discardedArrivalsAreCounted : Obligations.DiscardedArrivalsAreCounted := by
  intro p c s hc
  have hexec : exec c s = .next (arriveDiscarded p s) := by
    rcases hc with ⟨n, rfl⟩ | ⟨i, rfl, hi⟩ | ⟨b, rfl, hb⟩
    · rfl
    · have hcredit : arriveCredit p i s = arriveDiscarded p s := by
        unfold arriveCredit arriveDiscarded
        rw [if_neg (show ¬ (1 ≤ i.toNat ∧ i.toNat ≤ 16) by omega)]
      exact congrArg Host.Outcome.next hcredit
    · simp only [exec, execUndefinedPacketArrival, hb]
  rw [hexec]
  exact ⟨fun hl => by rw [arriveDiscarded_open hl]; rfl, fun hl => by rw [arriveDiscarded_down hl]⟩

/-- Settles O13: a CRD credits its port, and a quiet part has nothing to settle. -/
theorem creditArrivalAddsSaturating : Obligations.CreditArrivalAddsSaturating := by
  intro p i s hi hi'
  refine ⟨fun hl hquiet => exec_creditArrival_of_quiet hquiet hl ⟨hi, hi'⟩, fun hl => ?_⟩
  have hdown : arriveCredit p i s = s := if_pos hl
  exact congrArg Host.Outcome.next hdown

/-! ## Link establishment (R10) -/

/-- Settles O8: the port opens with every slot free, and no claim waits for one. -/
theorem linkEstablishmentOpensPort : Obligations.LinkEstablishmentOpensPort := by
  intro p s
  refine ⟨fun hreset hdown hquiet hclaim => ?_, fun hno => ?_⟩
  · rw [exec, execLinkEstablishment, if_pos ⟨hreset, hdown⟩, settleWith_of_quiet]
    · rfl
    obtain ⟨hslots, hu, hd⟩ := hquiet
    refine ⟨fun q => (nextClaim_eq_none_iff q _).2 fun hfree => ?_, ?_, ?_⟩
    · rw [topClaim_setPort]
      by_cases hq : q = p
      · rw [hq]; exact hclaim
      · refine (nextClaim_eq_none_iff q s).1 (hslots q) ?_
        simpa [slotFree, hq] using hfree
    · cases p <;> exact hu
    · cases p <;> exact hd
  · have hnot : ¬ (s.resetN = true ∧ (s.port p).link = .down) := by
      rintro ⟨hr, hl⟩
      rcases hno with h | h
      · rw [hr] at h; cases h
      · exact h hl
    rw [exec, execLinkEstablishment, if_neg hnot]

/-! ## Completions that answer no segment (R14, R81, R82) -/

theorem answers_iff {p : Port} {a : CplPacket} {s : State} {x : Entry} {g : Segment} :
    Answers p a s x g ↔ s.entry (tagEntry a.tag) = some x ∧ x.segments[tagSegment a.tag]? = some g ∧
      matchesSegment p a x g = true := by
  simp [Answers, matchesSegment, tagSegment, and_assoc]

theorem late_iff {p : Port} {a : CplPacket} {s : State} {x : Entry} {g : Segment} :
    Late p a s x g ↔ s.entry (tagEntry a.tag) = some x ∧ x.segments[tagSegment a.tag]? = some g ∧
      lateForSegment p x g = true := by
  simp [Late, lateForSegment, tagSegment, and_assoc]

/-- An answer goes to its segment, and the entry takes its result where that is due (R80, R83, R84). -/
theorem tableCompletion_of_answers {p : Port} {a : CplPacket} {s : State} {x : Entry} {g : Segment}
    (h : Answers p a s x g) : tableCompletion p a s =
      takeResult (tagEntry a.tag) (s.setEntry (tagEntry a.tag) (some (resolveSegment x (tagSegment a.tag) g a))) := by
  obtain ⟨hx, hg, hm⟩ := answers_iff.1 h
  simp only [tableCompletion, hx, hg, hm, if_true]

theorem tableCompletion_of_late {p : Port} {a : CplPacket} {s : State} {x : Entry} {g : Segment} (h : Late p a s x g) :
    tableCompletion p a s = (countStray p s, [lateRaise p x g a]) := by
  obtain ⟨hx, hg, hl⟩ := late_iff.1 h
  have hm : matchesSegment p a x g = false := by
    simp only [lateForSegment, Bool.and_eq_true, decide_eq_true_eq] at hl
    simp [matchesSegment, hl.2]
  simp only [tableCompletion, hx, hg, hm, hl, if_true, Bool.false_eq_true, if_false]

theorem tableCompletion_stray {p : Port} {a : CplPacket} {s : State} (hm : ∀ x g, ¬ Answers p a s x g)
    (hl : ∀ x g, ¬ Late p a s x g) :
    tableCompletion p a s = (countStray p s, [strayRaise p a (some a.status)]) := by
  unfold tableCompletion
  dsimp only
  split
  · rfl
  · next x hx =>
    split
    · rfl
    · next g hg =>
      rw [if_neg fun h => hm x g (answers_iff.2 ⟨hx, hg, h⟩), if_neg fun h => hl x g (late_iff.2 ⟨hx, hg, h⟩)]

theorem exec_completionArrival {p : Port} {a : CplPacket} {s : State} (hl : (s.port p).link ≠ .down)
    (hd : a.dst = (s.port p).identity) :
    exec (.completionArrival p a) s = .next (settleWith (tableCompletion p a s).2 (tableCompletion p a s).1) := by
  have harrive : arriveCompletion p a s = settleWith (tableCompletion p a s).2 (tableCompletion p a s).1 := by
    rw [arriveCompletion, if_neg hl, if_pos hd]
  exact congrArg Host.Outcome.next harrive

/-- Settles O15: the stray count is nothing that rest depends on, so the event ends with its raise. -/
theorem unmatchedCompletionIsStrayOrLate : Obligations.UnmatchedCompletionIsStrayOrLate := by
  intro p a s hrest
  have hsettle : ∀ x, settleWith [x] (countStray p s) = raise x (countStray p s) :=
    fun x => settleWith_of_atRest [x] _ ((alike_countStray p s).atRest hrest)
  refine ⟨fun hl hd => ?_, fun hl hd hm hlate => ?_, fun x g hl hd hlate => ?_, fun hl => ?_⟩
  · have harrive : arriveCompletion p a s = raise (strayRaise p a none) (countStray p s) := by
      rw [arriveCompletion, if_neg hl, if_neg hd]
    exact congrArg Host.Outcome.next harrive
  · rw [exec_completionArrival hl hd, tableCompletion_stray hm hlate, hsettle]
    rfl
  · rw [exec_completionArrival hl hd, tableCompletion_of_late hlate, hsettle]
    rfl
  · have harrive : arriveCompletion p a s = s := if_pos hl
    exact congrArg Host.Outcome.next harrive

/-! ## Completions that answer a segment (R80, R83) -/

theorem judgeAnswer_eq (x : Entry) (g : Segment) (a : CplPacket) : judgeAnswer x g a = answerState x.kind g a := by
  have hstatus : a.status ≠ 0 ↔ a.status.toNat ≠ 0 := not_congr BitVec.toNat_inj.symm
  unfold judgeAnswer answerState
  simp only [hstatus]
  cases x.kind <;> simp

theorem modify_eq_set_of_getElem? {α : Type} {l : List α} {k : Nat} {a : α} (h : l[k]? = some a) (f : α → α) :
    l.modify k f = l.set k (f a) := by
  refine List.ext_getElem? fun i => ?_
  rw [List.getElem?_modify, List.getElem?_set]
  by_cases hi : k = i
  · subst hi
    obtain ⟨hk, -⟩ := List.getElem?_eq_some_iff.1 h
    rw [h, if_pos rfl, if_pos hk]
    simp
  · simp [hi]

/-- A segment's state replaced, as a replaced segment. -/
theorem Entry.setState_eq {x : Entry} {k : Nat} {g : Segment} (hg : x.segments[k]? = some g) (st : SegState) :
    x.setState k st = { x with segments := x.segments.set k { g with state := st } } := by
  rw [Entry.setState, modify_eq_set_of_getElem? hg]

/-- The resolved entry, in the words of the statements. -/
theorem resolveSegment_eq_resolvedBy {x : Entry} {g : Segment} {a : CplPacket}
    (hg : x.segments[tagSegment a.tag]? = some g) :
    resolveSegment x (tagSegment a.tag) g a = resolvedBy x g a := by
  simp only [resolveSegment, judgeAnswer_eq, Entry.setState_eq hg, storeAt]
  unfold resolvedBy
  split
  · rfl
  · rfl

theorem resolved_iff_resolved (x : Entry) : x.resolved = true ↔ Resolved x.segments := by
  rw [x.resolved_iff]
  refine forall₂_congr fun g _ => ?_
  cases g.state <;> simp [SegState.resolved]

theorem alike_setEntry {s : State} {e : Fin 64} {x y : Entry} (hx : s.entry e = some x) (hs : y.state = x.state)
    (hd : y.dir = x.dir) : Alike s (s.setEntry e (some y)) where
  port q := by rw [State.port_setEntry]; exact .refl _
  window _ _ := by simp
  holder _ := by simp
  outbox _ := by simp
  expired _ := by simp
  entry i := by
    rw [State.entry_setEntry]
    split
    · next hi => rw [hi, hx, Option.map_some, Option.map_some, hs, hd]
    · rfl
  doneOrder := rfl
  reserve _ := by simp

/-- Settles O16: an entry with an unresolved segment left takes no result, and its state stays. -/
theorem matchedAnswerResolvesSegment : Obligations.MatchedAnswerResolvesSegment := by
  intro p a s x g hrest hl hd hanswers hopen
  obtain ⟨hx, hg, -⟩ := answers_iff.1 hanswers
  have hwaits : (resolvedBy x g a).resolved = false := by
    rw [← Bool.not_eq_true, resolved_iff_resolved]
    exact hopen
  have hsettled : AtRest (s.setEntry (tagEntry a.tag) (some (resolvedBy x g a))) :=
    Alike.atRest (alike_setEntry (y := resolvedBy x g a) hx rfl rfl) hrest
  rw [exec_completionArrival hl hd, tableCompletion_of_answers hanswers, resolveSegment_eq_resolvedBy hg,
    takeResult_of_not_due _ _ fun y hy => ?_]
  · rw [settleWith_of_atRest _ _ hsettled, raiseAll_nil]
  · rw [State.entry_setEntry_self] at hy
    cases hy
    simp [hwaits]

/-! ## The egress head leaves (R122, R79) -/

/-- A departed entry, in the words of the statements. -/
theorem Entry.departed_eq {x : Entry} {n : Nat} {g : Segment} (hg : x.segments[n]? = some g) (setting : TCto) :
    x.departed n setting = { x with
      segments := x.segments.set n { g with state := .sent }
      deadline :=
        if ∀ h ∈ x.segments, h.state = .notSent then
          setting.ticks.map (fun n => { remaining := n, setting := setting })
        else x.deadline
      state := if ∃ h ∈ x.segments.set n { g with state := .sent }, h.state = .notSent then .pending else .issued } := by
  simp only [Entry.departed, Entry.setState_eq hg, Entry.unsent_iff, List.all_eq_true, decide_eq_true_eq]

/-- Settles O20: the transmitter chooses the egress head exactly when R13 and R122 let it leave; a segment's departure makes
no claim. -/
theorem egressDepartureSendsHead : Obligations.EgressDepartureSendsHead := by
  intro p s
  refine ⟨fun hno => ?_, fun k rest hquiet hup hcredit howed hturn hq => ?_⟩
  · have hchoice : (s.port p).choice ≠ .egress := fun h => by
      obtain ⟨-, ⟨hup, hc, -⟩, -⟩ := (PortState.choice_eq_egress_iff _).1 h
      rcases hno with h0 | hdown
      · omega
      · exact hdown hup
    rw [exec, execEgressDeparture]
    exact if_neg hchoice
  · have hready : Safety.egressReady (s.port p) := ⟨hup, hcredit, by simp [hq]⟩
    have hchoice := (PortState.choice_eq_egress_iff (s.port p)).2 ⟨howed, hready, hturn⟩
    have hsent : Quiet (s.setPort p (headSent (s.port p) k rest)) := quiet_setPort hquiet Iff.rfl rfl rfl
    refine ⟨fun hk => ?_, fun e n q x g hk hx hg hn _ => ?_⟩
    · cases k with
      | segment e n q => exact absurd rfl (hk e n q)
      | _ =>
        simp only [exec, execEgressDeparture, hchoice, hq, if_true, PortState.sendHead_of_ready _ _ hready]
        rw [settle_of_quiet _ hsent]
    · subst hk
      have hdeparts : segmentSent e n (s.setPort p (headSent (s.port p) (.segment e n q) rest)) =
          (s.setPort p (headSent (s.port p) (.segment e n q) rest)).setEntry e (some (x.departed n (s.tcto x.dir))) := by
        simp [segmentSent, hx, hg, hn]
      simp only [exec, execEgressDeparture, hchoice, hq, if_true, PortState.sendHead_of_ready _ _ hready]
      rw [hdeparts, settle_of_quiet _ (quiet_setEntry hsent (x.departed_state_ne_done n _)), Entry.departed_eq hg]

end Sys2Proof.Machine
end

section
/-! A manager's writes of the settings (01 1.3, 02 2.2 to 2.5, 04 4.1, 06 6.3, 07 7.1, 08 8.2, 09 9.2 and 9.5): each is its owner's
judgement of the value, answered at once. -/

namespace Sys2Proof.Machine

open Sys2Proof.Safety

/-! ## What a take leaves as it is -/

@[simp] theorem taken_lock (q : Requester) (s : State) (k : Fin 8) : (taken q s).lock k = s.lock k := by simp [taken]
@[simp] theorem taken_entry (q : Requester) (s : State) (e : Fin 64) : (taken q s).entry e = s.entry e := by simp [taken]
@[simp] theorem taken_reserve (q : Requester) (s : State) (x : Dir) : (taken q s).reserve x = s.reserve x := by simp [taken]
@[simp] theorem taken_inUse (q : Requester) (s : State) (x : Dir) : (taken q s).inUse x = s.inUse x := by simp [taken]
@[simp] theorem taken_entries (q : Requester) (s : State) : (taken q s).entries = s.entries := by simp [taken]
@[simp] theorem taken_doneOrder (q : Requester) (s : State) : (taken q s).doneOrder = s.doneOrder := by simp [taken]
@[simp] theorem taken_notices (q : Requester) (s : State) : (taken q s).notices = s.notices := by simp [taken]
@[simp] theorem taken_managers (q : Requester) (s : State) : (taken q s).managers = s.managers := by simp [taken]
@[simp] theorem taken_timebase (q : Requester) (s : State) : (taken q s).timebase = s.timebase := by simp [taken]

/-- A take keeps all of a port but the ingress buffer's bookkeeping. -/
theorem taken_port (q : Requester) (s : State) (p : Port) :
    (taken q s).port p = { s.port p with
      headWaits := ((taken q s).port p).headWaits, creditsOwed := ((taken q s).port p).creditsOwed
      admitted := ((taken q s).port p).admitted } := by
  by_cases hp : p = q.port
  · subst hp; simp [taken]
  · simp [taken, hp]

/-! ## What a setting is to rest -/

/-- A lock's claim depends on the ports that its answers are for (R103). -/
theorem lockClaim_ports (p : Port) (s : State) (k : Fin 8) :
    lockClaim p s k =
      if ((s.lock k).outbox.map HeldAnswer.port).any (fun q => decide (q = p)) then some (.outbox k)
      else if ((s.lock k).expired.map HeldAnswer.port).any (fun q => decide (q = p)) then some (.expired k)
      else none := by
  rw [lockClaim, Option.any_map, List.any_map]
  rfl

/-- A part is as quiet as another with the same links, slots, waiting heads, lock answers and entries. -/
theorem quiet_congr {s t : State} (h : Quiet s) (hl : ∀ p, (t.port p).link = (s.port p).link)
    (hs : ∀ p, (t.port p).completions = (s.port p).completions) (hw : ∀ p, (t.port p).headWaits = (s.port p).headWaits)
    (ho : ∀ k, (t.lock k).outbox.map HeldAnswer.port = (s.lock k).outbox.map HeldAnswer.port)
    (hx : ∀ k, (t.lock k).expired.map HeldAnswer.port = (s.lock k).expired.map HeldAnswer.port)
    (he : ∀ e, t.entry e = s.entry e) (hd : t.doneOrder = s.doneOrder) : Quiet t := by
  have hlock : ∀ p, lockClaim p t = lockClaim p s := fun p => funext fun k => by rw [lockClaim_ports, lockClaim_ports, ho, hx]
  have hdone : ∀ p, doneClaims p t = doneClaims p s := fun p => funext fun e => by simp only [doneClaims, he]
  obtain ⟨hslots, hu, hdn⟩ := h
  refine ⟨fun p => ?_, (hw .u).trans hu, (hw .d).trans hdn⟩
  rw [← hslots p]
  have htop : topClaim p t = topClaim p s := by rw [topClaim, topClaim, hlock, hdone, hd]
  have hfree : slotFree p t = slotFree p s := by simp only [slotFree, hl, hs]
  rw [nextClaim, nextClaim, hfree, htop]

section

variable {s : State} (h : Quiet s)
include h

theorem quiet_setWindow (t : Dir) (w : Fin 16) (x : Window) : Quiet (s.setWindow t w x) := by
  apply quiet_congr h <;> simp

theorem quiet_setReserve (y : Dir) (v : Nat) : Quiet (s.setReserve y v) := by
  apply quiet_congr h <;> simp

theorem quiet_setTcto (x : Dir) (t : TCto) : Quiet (s.setTcto x t) := by
  apply quiet_congr h <;> simp

theorem quiet_notices (u : NoticeUnit) : Quiet { s with notices := u } := by
  apply quiet_congr h <;> intros <;> rfl

theorem quiet_managers (l : Vector ManagerEntry 4) : Quiet { s with managers := l } := by
  apply quiet_congr h <;> intros <;> rfl

theorem quiet_timebase (b : Timebase) : Quiet { s with timebase := b } := by
  apply quiet_congr h <;> intros <;> rfl

/-- A lock whose outbox and expiry answers stay for the same ports makes no new claim (R103). -/
theorem quiet_setLock (k : Fin 8) (x : Lock) (ho : x.outbox.map HeldAnswer.port = (s.lock k).outbox.map HeldAnswer.port)
    (hx : x.expired.map HeldAnswer.port = (s.lock k).expired.map HeldAnswer.port) : Quiet (s.setLock k x) := by
  have hk : ∀ j, ((s.setLock k x).lock j).outbox.map HeldAnswer.port = (s.lock j).outbox.map HeldAnswer.port ∧
      ((s.setLock k x).lock j).expired.map HeldAnswer.port = (s.lock j).expired.map HeldAnswer.port := by
    intro j
    rw [State.lock_setLock]
    split
    · next hj => subst hj; exact ⟨ho, hx⟩
    · exact ⟨rfl, rfl⟩
  exact quiet_congr h (by simp) (by simp) (by simp) (fun j => (hk j).1) (fun j => (hk j).2) (by simp) rfl

end

/-! ## Writes of 4-byte fields -/

section

variable {q : Requester} {f : Field} {v : Word32} {s u : State} {st : Status}

theorem Word32.lt_width (v : Word32) (hn : f.width = 4) : v.toNat < 256 ^ f.width := by
  rw [hn]
  exact v.isLt

/-- A manager's 4-byte write that its owner carries out and that leaves the part quiet. -/
theorem presentWord_of_quiet (h : ManagerCanPresent q s) (hf : f.writable = true) (hn : f.width = 4)
    (hr : ∀ t, fieldRaises f v.toNat t = []) (hw : writeField f v.toNat (taken q s) = (st, u)) (hu : Quiet u) :
    (.next (presentWrite q f v.toNat s) : Answer) = .next (answered q st [] u) :=
  congrArg _ (presentWrite_of_quiet h hf (Word32.lt_width v hn) (hr _) hw hu)

/-- A manager's 4-byte write that its owner refuses. -/
theorem presentWord_refused (h : ManagerCanPresent q s) (hf : f.writable = true) (hn : f.width = 4)
    (hr : ∀ t, fieldRaises f v.toNat t = []) (hw : writeField f v.toNat (taken q s) = (st, taken q s)) :
    (.next (presentWrite q f v.toNat s) : Answer) = .next (answered q st [] (taken q s)) :=
  presentWord_of_quiet h hf hn hr hw (quiet_taken h.1.1)

end

theorem nodeOf_of_le {v : Word32} (h : v.toNat ≤ 1023) : nodeOf v.toNat = some (v.setWidth 10) := by
  rw [nodeOf, if_pos h, BitVec.ofNat_toNat]

theorem nodeOf_of_lt {n : Nat} (h : 1023 < n) : nodeOf n = none := if_neg (by omega)

/-! ## Reserves, tCTO, tLEASE and tWAIT (R74, R75, R137) -/

theorem TCto.ofCode_of_mem {n : Nat} {t : TCto} (h : (n, t) ∈ [(0, TCto.off), (1, .ms1), (2, .ms8), (3, .ms64), (4, .ms512)]) :
    TCto.ofCode n = some t := by
  simp only [List.mem_cons, Prod.mk.injEq, List.not_mem_nil, or_false] at h
  rcases h with ⟨rfl, rfl⟩ | ⟨rfl, rfl⟩ | ⟨rfl, rfl⟩ | ⟨rfl, rfl⟩ | ⟨rfl, rfl⟩ <;> rfl

theorem TCto.ofCode_of_lt {n : Nat} (h : 4 < n) : TCto.ofCode n = none := by
  match n, h with
  | n + 5, _ => rfl

theorem msOf_of_le {v : Word32} (h : v.toNat ≤ 65535) : msOf v.toNat = some (v.setWidth 16) := by
  rw [msOf, if_pos h, BitVec.ofNat_toNat]

theorem msOf_of_lt {n : Nat} (h : 65535 < n) : msOf n = none := if_neg (by omega)

/-- Settles O45: each owner's range is the statement's, and what it stores makes no claim and no head's turn. -/
theorem tableAndLockSettingWrites : Obligations.TableAndLockSettingWrites := by
  intro q v s h
  have hq := quiet_taken (q := q) h.1.1
  refine ⟨fun y => ⟨fun hv => ?_, fun h1 h2 h3 => ?_⟩, fun x => ⟨fun hv => ?_, fun t ht => ?_⟩, fun k => ⟨fun hv => ?_, fun hv => ?_⟩⟩
  · refine presentWord_refused h rfl rfl (fun _ => rfl) ?_
    simp only [writeField, writeReserve, taken_reserve, taken_inUse]
    rw [if_pos hv]
  · refine presentWord_of_quiet h rfl rfl (fun _ => rfl) ?_ (quiet_setReserve hq y v.toNat)
    simp only [writeField, writeReserve, taken_reserve, taken_inUse]
    rw [if_neg (by omega)]
  · refine presentWord_refused h rfl rfl (fun _ => rfl) ?_
    simp only [writeField, writeTcto, TCto.ofCode_of_lt hv]
  · refine presentWord_of_quiet h rfl rfl (fun _ => rfl) ?_ (quiet_setTcto hq x t)
    simp only [writeField, writeTcto, TCto.ofCode_of_mem ht]
  · constructor <;> refine presentWord_refused h rfl rfl (fun _ => rfl) ?_
    · simp only [writeField, writeTLease, msOf_of_lt hv]
    · simp only [writeField, writeTWait, msOf_of_lt hv]
  · constructor <;> refine presentWord_of_quiet h rfl rfl (fun _ => rfl) ?_ (quiet_setLock hq k _ (by simp) (by simp))
    · simp only [writeField, writeTLease, msOf_of_le hv, taken_lock]
    · simp only [writeField, writeTWait, msOf_of_le hv, taken_lock]

/-! ## The notice unit's settings (R162, R163) -/

theorem NoticeClass.ofCode_of_mem {n : Nat} {t : NoticeClass} (h : (n, t) ∈ [(0, NoticeClass.off), (1, .routine), (2, .urgent)]) :
    NoticeClass.ofCode n = some t := by
  simp only [List.mem_cons, Prod.mk.injEq, List.not_mem_nil, or_false] at h
  rcases h with ⟨rfl, rfl⟩ | ⟨rfl, rfl⟩ | ⟨rfl, rfl⟩ <;> rfl

theorem NoticeClass.ofCode_of_lt {n : Nat} (h : 2 < n) : NoticeClass.ofCode n = none := by
  match n, h with
  | n + 3, _ => rfl

theorem targetPortOfCode_of_mem {n : Nat} {p : Port} (h : (n, p) ∈ [(1, Port.u), (2, .d)]) :
    targetPortOfCode n = some (some p) := by
  simp only [List.mem_cons, Prod.mk.injEq, List.not_mem_nil, or_false] at h
  rcases h with ⟨rfl, rfl⟩ | ⟨rfl, rfl⟩ <;> rfl

theorem targetPortOfCode_of_lt {n : Nat} (h : 2 < n) : targetPortOfCode n = none := by
  match n, h with
  | n + 3, _ => rfl

/-- The two dropped counts after losses, in the words of the statements (R160, R167). -/
theorem NoticeUnit.dropped_eq_lost (u : NoticeUnit) (a b : Nat) : u.dropped a b = lost u a b := by
  rw [NoticeUnit.dropped, lost, Nat.min_comm 65535, Nat.min_comm 4294967295]
  rfl

/-- A target port of NONE drains the queue (R163). -/
theorem NoticeUnit.retarget_none {u : NoticeUnit} (h : u.targetPort ≠ none) :
    u.retarget none = { lost u u.queue.length u.queue.length with queue := [], targetPort := none } := by
  rw [NoticeUnit.retarget, if_neg (Ne.symm h)]
  simp only [NoticeUnit.drained, NoticeUnit.dropped_eq_lost]

/-- The target port already held changes nothing (R163). -/
theorem NoticeUnit.retarget_same {u : NoticeUnit} {o : Option Port} (h : u.targetPort = o) : u.retarget o = u := if_pos h.symm

/-- A target port U or D keeps the records (R163). -/
theorem NoticeUnit.retarget_some (u : NoticeUnit) (p : Port) : u.retarget (some p) = { u with targetPort := some p } := by
  by_cases h : u.targetPort = some p
  · rw [NoticeUnit.retarget_same h, ← h]
  · rw [NoticeUnit.retarget, if_neg (Ne.symm h)]

/-- Settles O46: the codes are those of Table 11-9, and the notice unit's settings neither make a claim nor judge a head. -/
theorem noticeSettingWrites : Obligations.NoticeSettingWrites := by
  intro q v s h
  have hq := quiet_taken (q := q) h.1.1
  have hstore : ∀ {f : Field} {u : NoticeUnit}, f.writable = true → f.width = 4 → (∀ t, fieldRaises f v.toNat t = []) →
      writeField f v.toNat (taken q s) = (.ok, { taken q s with notices := u }) →
      (.next (presentWrite q f v.toNat s) : Answer) = .next (answered q .ok [] { taken q s with notices := u }) :=
    fun hf hn hr hw => presentWord_of_quiet h hf hn hr hw (quiet_notices hq _)
  refine ⟨fun hv => ⟨fun n => ?_, ?_⟩, fun n t ht => ?_, fun hv => ⟨fun hnone => ?_, fun hsome => ?_⟩, fun p hp => ?_, fun hv => ?_,
    fun hv => ?_⟩
  · refine presentWord_refused h rfl rfl (fun _ => rfl) ?_
    simp only [writeField, writeClass, NoticeClass.ofCode_of_lt hv]
  · refine presentWord_refused h rfl rfl (fun _ => rfl) ?_
    simp only [writeField, writeTargetPort, targetPortOfCode_of_lt hv]
  · refine hstore rfl rfl (fun _ => rfl) ?_
    simp only [writeField, writeClass, NoticeClass.ofCode_of_mem ht, taken_notices]
  · refine presentWord_refused h rfl rfl (fun _ => rfl) ?_
    simp only [writeField, writeTargetPort, hv, targetPortOfCode, NoticeUnit.retarget_same ((congrArg _ (taken_notices q s)).trans hnone)]
  · refine hstore rfl rfl (fun _ => rfl) ?_
    simp only [writeField, writeTargetPort, hv, targetPortOfCode, taken_notices, NoticeUnit.retarget_none hsome]
  · refine hstore rfl rfl (fun _ => rfl) ?_
    simp only [writeField, writeTargetPort, targetPortOfCode_of_mem hp, taken_notices, NoticeUnit.retarget_some]
  · refine presentWord_refused h rfl rfl (fun _ => rfl) ?_
    simp only [writeField, writeTargetNode, nodeOf_of_lt hv]
  · refine hstore rfl rfl (fun _ => rfl) ?_
    simp only [writeField, writeTargetNode, nodeOf_of_le hv, taken_notices]

/-! ## The manager list and the divider (R178, R187) -/

/-- A single bit of a word, as a subfield of its value and as the bit of the word. -/
theorem bitsOf_bit {n : Nat} (v : BitVec n) (i : Nat) : decide (bitsOf v.toNat i i = 1) = v.getLsbD i := by
  have hone : i + 1 - i = 1 := by omega
  rw [BitVec.getLsbD, Nat.testBit_eq_decide_div_mod_eq, bitsOf, hone, pow_one]

theorem bitsOf_bit_iff {n : Nat} (v : BitVec n) (i : Nat) : bitsOf v.toNat i i = 1 ↔ v.getLsbD i = true := by
  rw [← bitsOf_bit, decide_eq_true_iff]

/-- A manager entry's value without an encoding: port 2 or 3, or a node above 1023 (R178, R195). -/
theorem ManagerEntry.ofCode_none {v : Nat} (h : 2 ≤ v / 2 ^ 24 % 4 ∨ 1023 < v % 2 ^ 16) : ManagerEntry.ofCode v = none := by
  refine if_pos ?_
  simp only [bitsOf]
  omega

/-- A manager entry's fields as they stand in the word; reserved bits are ignored (Table 11-11). -/
theorem ManagerEntry.ofCode_some {v : Word32} (hp : v.toNat / 2 ^ 24 % 4 < 2) (hn : v.toNat % 2 ^ 16 ≤ 1023) :
    ManagerEntry.ofCode v.toNat =
      some { valid := v.getLsbD 31, node := v.setWidth 10, port := if v.getLsbD 24 then .d else .u } := by
  have hnode : BitVec.ofNat 10 (bitsOf v.toNat 15 0) = v.setWidth 10 := by
    apply BitVec.eq_of_toNat_eq
    simp only [bitsOf, BitVec.toNat_ofNat, BitVec.toNat_setWidth]
    omega
  have hport : bitsOf v.toNat 25 24 = 1 ↔ v.getLsbD 24 = true := by
    rw [← bitsOf_bit_iff]
    simp only [bitsOf]
    omega
  rw [ManagerEntry.ofCode, if_neg (by simp only [bitsOf]; omega), hnode]
  simp only [bitsOf_bit, hport]

/-- Settles O47: the encodings are those of Table 11-11, and neither the list nor the timebase is anything to rest. -/
theorem managerAndDividerWrites : Obligations.ManagerAndDividerWrites := by
  intro q v s h
  have hq := quiet_taken (q := q) h.1.1
  refine ⟨fun i => ⟨fun hv => ?_, fun hp hn => ?_⟩, fun hv => ?_, fun h1 h2 => ?_⟩
  · refine presentWord_refused h rfl rfl (fun _ => rfl) ?_
    simp only [writeField, writeManager, ManagerEntry.ofCode_none hv]
  · refine presentWord_of_quiet h rfl rfl (fun _ => rfl) ?_ (quiet_managers hq _)
    simp only [writeField, writeManager, ManagerEntry.ofCode_some hp hn, taken_managers]
  · refine presentWord_refused h rfl rfl (fun _ => rfl) ?_
    simp only [writeField, writeDivider]
    rw [if_neg (by omega)]
  · refine presentWord_of_quiet h rfl rfl (fun _ => rfl) ?_ (quiet_timebase hq _)
    simp only [writeField, writeDivider, taken_timebase]
    rw [if_pos ⟨h1, h2⟩]

/-! ## Identities and tSTALL (R8, R125) -/

/-- Check 2 of an identity write: some entry that is not FREE uses the port (R8). -/
theorem State.portUsed_iff (s : State) (p : Port) :
    s.portUsed p = true ↔ ∃ e x, s.entry e = some x ∧ (originPort x.dir = p ∨ forwardPort x.dir = p) := by
  rw [State.portUsed, State.entries_toList]
  simp only [List.any_map, List.any_eq_true, Function.comp, allEntries, List.mem_finRange, true_and]
  refine exists_congr fun e => ?_
  cases s.entry e <;> simp

/-- Check 3 of an identity write: the value is the target of a window in force that forwards at the port (R8). -/
theorem State.targetInForce_iff (s : State) (p : Port) (n : Node) :
    s.targetInForce p n = true ↔ ∃ t w, forwardPort t = p ∧ (s.window t w).state ≠ .disabled ∧ (s.window t w).target = n := by
  have hdir : ∀ t, forwardPort t = p ↔ t = otherDir (dirOf p) := by
    intro t
    cases t <;> cases p <;> decide
  simp [State.targetInForce, allWindows, Window.inForce, hdir]

theorem State.portUsed_taken (q : Requester) (s : State) (p : Port) : (taken q s).portUsed p = s.portUsed p := by
  rw [State.portUsed, taken_entries, State.portUsed]

theorem State.targetInForce_taken (q : Requester) (s : State) (p : Port) (n : Node) :
    (taken q s).targetInForce p n = s.targetInForce p n := by
  simp only [State.targetInForce, taken_window]

/-- Settles O43: the three checks in order, each in the statement's words. -/
theorem identityWriteOutcomes : Obligations.IdentityWriteOutcomes := by
  intro q p v s h
  have hq := quiet_taken (q := q) h.1.1
  refine ⟨fun hv => ?_, fun hv => ⟨fun hused => ?_, fun hfree => ?_⟩⟩
  · refine presentWord_refused h rfl rfl (fun _ => rfl) ?_
    simp only [writeField, writeIdentity, nodeOf_of_lt hv]
  · refine presentWord_refused h rfl rfl (fun _ => rfl) ?_
    simp only [writeField, writeIdentity, nodeOf_of_le hv, State.portUsed_taken]
    rw [if_pos ((s.portUsed_iff p).2 hused)]
  · have hunused : ¬ s.portUsed p = true := fun hu => by
      obtain ⟨e, x, hx, -⟩ := (s.portUsed_iff p).1 hu
      rw [hfree e] at hx
      cases hx
    have hval : ∀ n : Node, n = v.setWidth 10 ↔ n.toNat = v.toNat := by
      intro n
      rw [← BitVec.toNat_inj, BitVec.toNat_setWidth, Nat.mod_eq_of_lt (by omega)]
    refine ⟨fun t ht ⟨w, hforce, htarget⟩ => ?_, fun hnone => ?_⟩
    · refine presentWord_refused h rfl rfl (fun _ => rfl) ?_
      simp only [writeField, writeIdentity, nodeOf_of_le hv, State.portUsed_taken, State.targetInForce_taken]
      rw [if_neg hunused, if_pos ((s.targetInForce_iff p _).2 ⟨t, w, ht, hforce, (hval _).2 htarget⟩)]
    · refine presentWord_of_quiet h rfl rfl (fun _ => rfl) ?_ (quiet_setPort hq Iff.rfl rfl rfl)
      simp only [writeField, writeIdentity, nodeOf_of_le hv, State.portUsed_taken, State.targetInForce_taken]
      rw [if_neg hunused, if_neg]
      rintro ht
      obtain ⟨t, w, hp, hforce, htarget⟩ := (s.targetInForce_iff p _).1 ht
      exact hnone t w hp hforce ((hval _).1 htarget)

theorem TStall.ofCode_of_mem {n : Nat} {t : TStall} (h : (n, t) ∈ [(0, TStall.off), (1, .us100), (2, .ms1), (3, .ms10)]) :
    TStall.ofCode n = some t := by
  simp only [List.mem_cons, Prod.mk.injEq, List.not_mem_nil, or_false] at h
  rcases h with ⟨rfl, rfl⟩ | ⟨rfl, rfl⟩ | ⟨rfl, rfl⟩ | ⟨rfl, rfl⟩ <;> rfl

theorem TStall.ofCode_of_lt {n : Nat} (h : 3 < n) : TStall.ofCode n = none := by
  match n, h with
  | n + 4, _ => rfl

theorem TStall.ticks_of_mem {t : TStall} {n : Option Nat}
    (h : (t, n) ∈ [(TStall.off, none), (.us100, some 100), (.ms1, some 1000), (.ms10, some 10000)]) : t.ticks = n := by
  simp only [List.mem_cons, Prod.mk.injEq, List.not_mem_nil, or_false] at h
  rcases h with ⟨rfl, rfl⟩ | ⟨rfl, rfl⟩ | ⟨rfl, rfl⟩ | ⟨rfl, rfl⟩ <;> rfl

/-- A port waits for credit under R126's three conditions. -/
theorem PortState.waitsForCredit_iff (x : PortState) :
    x.waitsForCredit = true ↔ x.link = .up ∧ x.egress ≠ [] ∧ x.credits = 0 := by
  simp [PortState.waitsForCredit, and_assoc]

/-- The port that a manager's tSTALL write leaves (R125). -/
theorem exec_tstallWrite {q : Requester} {p : Port} {v : Word32} {t : TStall} {s : State} (h : ManagerCanPresent q s)
    (ht : TStall.ofCode v.toNat = some t) :
    exec (.tstallWrite q p v) s = .next (answered q .ok [] ((taken q s).setPort p { (taken q s).port p with
      tStall := t, stallTimer := if (s.port p).waitsForCredit then t.ticks else none })) := by
  refine presentWord_of_quiet h rfl rfl (fun _ => rfl) ?_ (quiet_setPort (quiet_taken h.1.1) Iff.rfl rfl rfl)
  have hwaits : ((taken q s).port p).waitsForCredit = (s.port p).waitsForCredit := by
    rw [taken_port]
    rfl
  simp only [writeField, writeTStall, ht, hwaits]

/-- Settles O44: a port under R126's conditions starts its timer afresh; any other has none running. -/
theorem tstallWriteOutcomes : Obligations.TstallWriteOutcomes := by
  intro q p v s h htimer
  refine ⟨fun hv => ?_, fun t ht => ⟨fun hidle => ?_, fun hup hqueued hcredit n hn => ?_⟩⟩
  · refine presentWord_refused h rfl rfl (fun _ => rfl) ?_
    simp only [writeField, writeTStall, TStall.ofCode_of_lt hv]
  · have hnone : ((taken q s).port p).stallTimer = none := by
      rw [taken_port]
      refine Option.not_isSome_iff_eq_none.1 fun hsome => hidle ?_
      rw [PortTimer] at htimer
      rw [htimer, Bool.and_eq_true] at hsome
      exact (s.port p).waitsForCredit_iff.1 hsome.1
    rw [exec_tstallWrite h (TStall.ofCode_of_mem ht), if_neg (mt (s.port p).waitsForCredit_iff.1 hidle), ← hnone]
  · rw [exec_tstallWrite h (TStall.ofCode_of_mem ht), if_pos ((s.port p).waitsForCredit_iff.2 ⟨hup, hqueued, hcredit⟩),
      TStall.ticks_of_mem hn]

end Sys2Proof.Machine
end

section
/-! A manager's writes of the window tables (02 2.2 to 2.5, 2.7): the configuration fields, and the commands. -/

namespace Sys2Proof.Machine

open Sys2Proof.Safety

/-! ## DISABLE and CLEAR_FAULT (R36, R39) -/

/-- Commands 2 and 3 are carried out in every state: the window after the take is `x`, and the answer OK. -/
theorem presentWrite_windowCommand {q : Requester} {t : Dir} {w : Fin 16} {v : Nat} {x : Window} {s : State}
    (h : ManagerCanPresent q s) (hv : v < 4)
    (hw : windowCommand t w v (taken q s) = (.ok, (taken q s).setWindow t w x)) :
    presentWrite q (.command t w) v s = answered q .ok [] ((taken q s).setWindow t w x) :=
  presentWrite_of_quiet h rfl (Nat.lt_of_lt_of_le hv (by simp [Field.width])) rfl hw (quiet_setWindow (quiet_taken h.1.1) t w x)

theorem exec_disable {q : Requester} {t : Dir} {w : Fin 16} {s : State} (h : ManagerCanPresent q s) :
    exec (.disable q t w) s = .next (answered q .ok [] ((taken q s).setWindow t w (s.window t w).close)) :=
  congrArg Host.Outcome.next (presentWrite_windowCommand h (by decide) (by simp [windowCommand]))

theorem exec_clearFault {q : Requester} {t : Dir} {w : Fin 16} {s : State} (h : ManagerCanPresent q s) :
    exec (.clearFault q t w) s = .next (answered q .ok [] ((taken q s).setWindow t w (s.window t w).clearFault)) :=
  congrArg Host.Outcome.next (presentWrite_windowCommand h (by decide) (by simp [windowCommand]))

theorem Window.close_of_open {w : Window} (h : w.state = .active ∨ w.state = .faulted) :
    w.close = { w with state := if w.inFlight = 0 then .disabled else .draining } := by
  rcases h with h | h <;> simp [Window.close, h]

theorem Window.close_of_closed {w : Window} (h : w.state = .disabled ∨ w.state = .draining) : w.close = w := by
  rcases h with h | h <;> simp [Window.close, h]

/-- Settles O41: both commands act in every state, as their own functions of the window say. -/
theorem disableAndClearFaultOutcomes : Obligations.DisableAndClearFaultOutcomes := by
  intro q t w s h
  refine ⟨fun hopen hn => ?_, fun hopen hn => ?_, fun hclosed => ?_, fun hf => ?_, fun hf => ?_⟩
  · rw [exec_disable h, Window.close_of_open hopen, if_pos hn]
  · rw [exec_disable h, Window.close_of_open hopen, if_neg (by omega)]
  · rw [exec_disable h, Window.close_of_closed hclosed, ← taken_window q s t w, State.setWindow_window]
  · rw [exec_clearFault h, Window.clearFault, if_pos hf]
  · rw [exec_clearFault h, Window.clearFault, if_neg hf]

/-! ## Configuration fields (R24, R44, R195) -/

/-- The field that a configuration write names, and its value. -/
def configTarget (t : Dir) (w : Fin 16) : WindowFieldWrite → Field × Nat
  | .attributes v => (.attributes t w, v.toNat)
  | .base v => (.base t w, v.toNat)
  | .limit v => (.limit t w, v.toNat)
  | .translatedBase v => (.translatedBase t w, v.toNat)
  | .target v => (.target t w, v.toNat)

theorem exec_windowFieldWrite (q : Requester) (t : Dir) (w : Fin 16) (f : WindowFieldWrite) (s : State) :
    exec (.windowFieldWrite q t w f) s = .next (presentWrite q (configTarget t w f).1 (configTarget t w f).2 s) := by
  cases f <;> rfl

theorem addrOf_toNat (v : Word64) : addrOf v.toNat = if v.toNat < 2 ^ 40 then some (v.setWidth 40) else none := by
  rw [addrOf, BitVec.ofNat_toNat]

/-- The space and granule codes of an attributes value (Table 11-9). -/
theorem Space.ofCode_bits (n : Nat) :
    Space.ofCode (BitVec.ofNat 8 (bitsOf n 1 0)) = if 2 ≤ n % 4 then none else if n % 4 = 0 then some .memory else some .io := by
  have hbits : bitsOf n 1 0 = n % 4 := by simp [bitsOf]
  rw [hbits]
  have hlt : n % 4 < 4 := Nat.mod_lt _ (by decide)
  generalize n % 4 = k at hlt
  interval_cases k <;> rfl

theorem Granule.ofCode_bits (n : Nat) :
    Granule.ofCode (bitsOf n 13 12) =
      if n / 4096 % 4 = 3 then none
      else some (if n / 4096 % 4 = 0 then .whole else if n / 4096 % 4 = 1 then .g128 else .g256) := by
  have hbits : bitsOf n 13 12 = n / 4096 % 4 := rfl
  rw [hbits]
  have hlt : n / 4096 % 4 < 4 := Nat.mod_lt _ (by decide)
  generalize n / 4096 % 4 = k at hlt
  interval_cases k <;> rfl

theorem bitsOf_extract (v : Word32) : BitVec.ofNat 4 (bitsOf v.toNat 23 20) = v.extractLsb' 20 4 := by
  apply BitVec.eq_of_toNat_eq
  rw [BitVec.extractLsb'_toNat, BitVec.toNat_ofNat, Nat.shiftRight_eq_div_pow, bitsOf, Nat.mod_mod]

/-- The attributes that a value encodes, in the words of the statements (Table 11-11). -/
theorem Window.withAttributes_eq_withField (w : Window) (v : Word32) :
    w.withAttributes v.toNat = withField w (.attributes v) := by
  simp only [Window.withAttributes, withField, Space.ofCode_bits, Granule.ofCode_bits, bitsOf_bit_iff, bitsOf_extract]
  by_cases hs : 2 ≤ v.toNat % 4
  · simp [hs]
  · by_cases hg : v.toNat / 4096 % 4 = 3
    · simp [hs, hg]
    · rw [if_neg hs, if_neg hg, if_neg (not_or.2 ⟨hs, hg⟩)]
      by_cases h0 : v.toNat % 4 = 0 <;> simp [h0]

/-- A configuration write is judged by the form of its value, then by the window's state (R24, R195; log 10). -/
theorem writeField_configTarget (t : Dir) (w : Fin 16) (f : WindowFieldWrite) (s : State) :
    writeField (configTarget t w f).1 (configTarget t w f).2 s = storeWindow t w (withField (s.window t w) f) s := by
  cases f with
  | attributes v => rw [← Window.withAttributes_eq_withField]; rfl
  | base v | limit v | translatedBase v =>
    simp only [configTarget, writeField, withField, addrOf_toNat]
    split <;> rfl
  | target v =>
    simp only [configTarget, writeField, withField, nodeOf, BitVec.ofNat_toNat]
    split <;> rfl

/-- A configuration write of a manager whose owner answers `st` with the state `u`. -/
theorem exec_windowFieldWrite_of_quiet {q : Requester} {t : Dir} {w : Fin 16} {f : WindowFieldWrite} {s u : State} {st : Status}
    (h : ManagerCanPresent q s) (hw : storeWindow t w (withField (s.window t w) f) (taken q s) = (st, u)) (hu : Quiet u) :
    exec (.windowFieldWrite q t w f) s = .next (answered q st [] u) := by
  rw [exec_windowFieldWrite]
  refine congrArg _ (presentWrite_of_quiet h ?_ ?_ ?_ ?_ hu)
  · cases f <;> rfl
  · cases f with
    | attributes v | target v => exact v.isLt
    | base v | limit v | translatedBase v => exact v.isLt
  · cases f <;> rfl
  · rw [writeField_configTarget, taken_window]
    exact hw

/-- Settles O42: a value without an encoding, a window in force, and a stored value are the three cases of the store. -/
theorem windowFieldWriteOutcomes : Obligations.WindowFieldWriteOutcomes := by
  intro q t w s h
  have hq := quiet_taken (q := q) h.1.1
  refine ⟨fun f hf => ?_, fun f x hf => ⟨fun hst => ?_, fun hst => ?_⟩, fun v => ?_⟩
  · exact exec_windowFieldWrite_of_quiet h (by rw [hf, storeWindow]) hq
  · exact exec_windowFieldWrite_of_quiet h (by rw [hf, storeWindow, taken_window, if_neg hst]) hq
  · exact exec_windowFieldWrite_of_quiet h (by rw [hf, storeWindow, taken_window, if_pos hst]) (quiet_setWindow hq t w x)
  · refine presentWord_of_quiet h rfl rfl (fun _ => rfl) ?_ (quiet_setWindow hq t w _)
    simp only [writeField, taken_window, Window.clearHits]

/-! ## ENABLE (R30 to R34) -/

theorem Window.bindingOk_iff (w : Window) : w.bindingOk = true ↔ ∀ k, w.lockBinding = some k → k.toNat < 8 := by
  unfold Window.bindingOk
  split
  · next h => simp [h]
  · next k h => simp [h]

/-- Two windows' ranges share no byte where one ends before the other begins (R33). -/
theorem Window.meets_iff (w v : Window) :
    w.meets v = true ↔ w.base.toNat ≤ v.limit.toNat ∧ v.base.toNat ≤ w.limit.toNat := by
  simp [Window.meets]

/-- ENABLE check 5 (R33). -/
theorem State.overlapsAnother_iff (s : State) (t : Dir) (w : Fin 16) :
    s.overlapsAnother t w = true ↔ ∃ v, v ≠ w ∧ (s.window t v).state ≠ .disabled ∧ (s.window t v).space = (s.window t w).space ∧
      (s.window t w).base.toNat ≤ (s.window t v).limit.toNat ∧ (s.window t v).base.toNat ≤ (s.window t w).limit.toNat := by
  simp [State.overlapsAnother, allWindows, Window.inForce, Window.meets_iff, and_assoc]

@[simp] theorem State.enableStatus_taken (q : Requester) (s : State) (t : Dir) (w : Fin 16) :
    (taken q s).enableStatus t w = s.enableStatus t w := by
  have hid : ∀ p, ((taken q s).port p).identity = (s.port p).identity := fun p => by rw [taken_port]
  have hover : (taken q s).overlapsAnother t w = s.overlapsAnother t w := by
    simp only [State.overlapsAnother, taken_window]
  rw [State.enableStatus, State.enableStatus, taken_window, hid, hover]

section

variable {s : State} {t : Dir} {w : Fin 16}

theorem State.enableStatus_of_state (h : (s.window t w).state ≠ .disabled) : s.enableStatus t w = .wrongState := if_pos h

/-- Checks 1 to 4 give BAD_VALUE, whichever of them fails (R31, R32). -/
theorem State.enableStatus_of_value (h : (s.window t w).state = .disabled)
    (hbad : ¬ AddressesAligned (s.window t w) ∨ ¬ TranslationFits (s.window t w) ∨
      (s.window t w).target = (s.port (forwardPort t)).identity ∨
      (∃ k, (s.window t w).lockBinding = some k ∧ 8 ≤ k.toNat)) : s.enableStatus t w = .badValue := by
  have hbinding : (∃ k, (s.window t w).lockBinding = some k ∧ 8 ≤ k.toNat) ↔ ¬ (s.window t w).bindingOk = true := by
    simp [Window.bindingOk_iff]
  rw [← Window.aligned_iff, ← Window.fits_iff, hbinding] at hbad
  simp only [State.enableStatus]
  rw [if_neg (not_not_intro h)]
  split
  · rfl
  · split
    · rfl
    · split
      · rfl
      · split
        · rfl
        · simp_all

/-- Checks 1 to 4 passed, check 5 decides between OVERLAP and OK (R33, R34). -/
theorem State.enableStatus_of_checks (h : (s.window t w).state = .disabled) (ha : AddressesAligned (s.window t w))
    (hf : TranslationFits (s.window t w)) (ht : (s.window t w).target ≠ (s.port (forwardPort t)).identity)
    (hb : ∀ k, (s.window t w).lockBinding = some k → k.toNat < 8) :
    s.enableStatus t w = if s.overlapsAnother t w then .overlap else .ok := by
  rw [← Window.aligned_iff] at ha
  rw [← Window.fits_iff] at hf
  rw [← Window.bindingOk_iff] at hb
  simp [State.enableStatus, h, ha, hf, ht, hb]

end

/-- ENABLE of a manager whose checks all pass makes the window ACTIVE (R34). -/
theorem exec_enable_ok {q : Requester} {t : Dir} {w : Fin 16} {s : State} (h : ManagerCanPresent q s)
    (hs : s.enableStatus t w = .ok) :
    exec (.enable q t w) s = .next (answered q .ok []
      ((taken q s).setWindow t w { s.window t w with state := .active, fault := none })) := by
  have hstatus : (taken q s).enableStatus t w = .ok := by rw [State.enableStatus_taken, hs]
  refine congrArg Host.Outcome.next (presentWrite_windowCommand h (by decide) ?_)
  simp only [windowCommand, enableWindow, hstatus, taken_window]

/-- Settles O39: the status of the first check that fails, or the window ACTIVE. -/
theorem enableOutcomes : Obligations.EnableOutcomes := by
  intro q t w s h
  have hrefused : ∀ st, st ≠ .ok → s.enableStatus t w = st →
      exec (.enable q t w) s = .next (answered q st [] (taken q s)) := by
    intro st hst hs
    rw [exec_enable_refused h (by rwa [State.enableStatus_taken, hs]), State.enableStatus_taken, hs]
  refine ⟨fun hst => hrefused _ (by decide) (State.enableStatus_of_state hst), fun hd =>
    ⟨fun hbad => hrefused _ (by decide) (State.enableStatus_of_value hd hbad), fun ha hf ht hb => ?_⟩⟩
  have hchecks := State.enableStatus_of_checks hd ha hf ht hb
  refine ⟨fun hover => hrefused _ (by decide) ?_, fun hapart => exec_enable_ok h ?_⟩
  · rw [hchecks, if_pos ((s.overlapsAnother_iff t w).2 hover)]
  · rw [hchecks, if_neg]
    intro hover
    obtain ⟨v, hv, hforce, hspace, h1, h2⟩ := (s.overlapsAnother_iff t w).1 hover
    have := hapart v hv hforce hspace
    omega

end Sys2Proof.Machine
end

section
/-! Settling where at most one claim has come up (R104): it is placed, and nothing else happens; and a raise goes with every change that
leaves the notice unit alone. -/

namespace Sys2Proof.Machine

open Sys2Proof.Safety

/-! ## Raises and changes elsewhere -/

theorem raiseAll_with_notices (es : List Raise) (s : State) : raiseAll es s = { s with notices := (raiseAll es s).notices } := by
  rw [raiseAll_eq]

/-- What a raise makes of the notice unit depends on the unit and on the millisecond count (R160). -/
theorem raise_notices_congr (x : Raise) {s t : State} (hn : t.notices = s.notices) (ht : t.timebase = s.timebase) :
    (raise x t).notices = (raise x s).notices := by
  have hclass : t.noticeClass x.kind = s.noticeClass x.kind := by rw [State.noticeClass, State.noticeClass, hn]
  rcases raise_cases x s with ⟨hoff | hnone, hs⟩ | ⟨hc, hp, hq, hs⟩ | ⟨hc, hp, hq, hs⟩
  · rw [hs, raise_of_class_off x t (hclass.trans hoff), hn]
  · rw [hs, raise_of_no_target x t (by rw [hn, hnone]), hn]
  · rw [hs, raise_of_full x t (by rwa [hclass]) (by rwa [hn]) (by rwa [hn]), hn]
  · rw [hs, raise_of_room x t (by rwa [hclass]) (by rwa [hn]) (by rwa [hn]), hn, hclass, ht]

theorem raiseAll_notices_congr (es : List Raise) {s t : State} (hn : t.notices = s.notices) (ht : t.timebase = s.timebase) :
    (raiseAll es t).notices = (raiseAll es s).notices := by
  induction es generalizing s t with
  | nil => exact hn
  | cons x xs ih => exact ih (raise_notices_congr x hn ht) (by simp [ht])

/-- Raises go with a change that leaves the notice unit and the timebase alone. -/
theorem raiseAll_comm {f : State → State} (hf : ∀ s u, f { s with notices := u } = { f s with notices := u })
    (ht : ∀ s, (f s).timebase = s.timebase) (hn : ∀ s, (f s).notices = s.notices) (es : List Raise) (s : State) :
    raiseAll es (f s) = f (raiseAll es s) :=
  calc raiseAll es (f s) = { f s with notices := (raiseAll es (f s)).notices } := raiseAll_with_notices es (f s)
    _ = { f s with notices := (raiseAll es s).notices } := by rw [raiseAll_notices_congr es (hn s) (ht s)]
    _ = f { s with notices := (raiseAll es s).notices } := (hf s _).symm
    _ = f (raiseAll es s) := by rw [← raiseAll_with_notices es s]

theorem raiseAll_setPort (es : List Raise) (s : State) (p : Port) (x : PortState) :
    raiseAll es (s.setPort p x) = (raiseAll es s).setPort p x :=
  raiseAll_comm (f := fun s => s.setPort p x) (by cases p <;> intros <;> rfl) (by simp) (by simp) es s

theorem raiseAll_setLock (es : List Raise) (s : State) (k : Fin 8) (x : Lock) :
    raiseAll es (s.setLock k x) = (raiseAll es s).setLock k x :=
  raiseAll_comm (f := fun s => s.setLock k x) (by intros; rfl) (by simp) (by simp) es s

theorem raise_setPort (x : Raise) (s : State) (p : Port) (y : PortState) : raise x (s.setPort p y) = (raise x s).setPort p y :=
  raiseAll_setPort [x] s p y

theorem raise_setLock (x : Raise) (s : State) (k : Fin 8) (y : Lock) : raise x (s.setLock k y) = (raise x s).setLock k y :=
  raiseAll_setLock [x] s k y

theorem raise_answered (x : Raise) (q : Requester) (st : Status) (data : List Byte) (s : State) :
    raise x (answered q st data s) = answered q st data (raise x s) := by
  rw [answered, raise_setPort, answered, raise_port]

theorem raise_handedOn (x : Raise) (k : Fin 8) (s : State) : raise x (handedOn k s) = handedOn k (raise x s) := by
  simp only [handedOn, raise_lock, raise_port]
  split
  · rfl
  · split
    · rw [raise_setPort, raise_setLock]
    · rw [raise_setLock]

/-! ## One claim placed (R104) -/

/-- One claim of one port to give out, and no other afterwards. -/
theorem giveOut_of_one {p : Port} {a : Claim} {s : State} (fuel : Nat) (h : nextClaim p s = some a)
    (ho : nextClaim (otherPort p) s = none) (hs : SlotLaw (placeClaim p a s)) :
    giveOut (fuel + 1) s = placeClaim p a s := by
  cases p with
  | u => rw [giveOut_u fuel s a h, giveOut_of_slotLaw _ _ hs]
  | d => rw [giveOut_d fuel s a ho h, giveOut_of_slotLaw _ _ hs]

/-- Settling places the one claim there is, where no head waits. -/
theorem settleWith_of_one {p : Port} {a : Claim} {s : State} (es : List Raise) (h : nextClaim p s = some a)
    (ho : nextClaim (otherPort p) s = none) (hq : Quiet (placeClaim p a s)) :
    settleWith es s = raiseAll es (placeClaim p a s) := by
  have hheads : ∀ q, (s.port q).headWaits = false := fun q => by
    have hw : ((placeClaim p a s).port q).headWaits = false := by
      cases q
      · exact hq.2.1
      · exact hq.2.2
    rwa [placeClaim_port] at hw
  rw [settleWith_of_heads es s (hheads .u) (hheads .d), giveOut_of_one 31 h ho hq.1]

/-- A lock claims no slot of a port where neither its outbox nor an expiry answer is for that port (R103). -/
theorem lockClaim_eq_none_iff (p : Port) (s : State) (k : Fin 8) : lockClaim p s k = none ↔ NoLockClaim p s k := by
  unfold lockClaim NoLockClaim
  cases (s.lock k).outbox with
  | none => simp
  | some h => by_cases hp : h.port = p <;> simp [hp]

theorem findSome?_eq_of_unique {α β : Type} {f : α → Option β} {l : List α} {a : α} (ha : a ∈ l)
    (h : ∀ b ∈ l, b ≠ a → f b = none) : l.findSome? f = f a := by
  induction l with
  | nil => cases ha
  | cons b l ih =>
    by_cases hb : b = a
    · subst hb
      rw [List.findSome?_cons]
      cases hf : f b with
      | some c => rfl
      | none =>
        refine List.findSome?_eq_none_iff.2 fun c hc => ?_
        by_cases hcb : c = b
        · rw [hcb, hf]
        · exact h c (List.mem_cons_of_mem _ hc) hcb
    · rw [List.findSome?_cons, h b List.mem_cons_self hb]
      exact ih ((List.mem_cons.1 ha).resolve_left (Ne.symm hb)) fun c hc => h c (List.mem_cons_of_mem _ hc)

/-- Where nothing claims, a changed lock is the only one that can (R104). -/
theorem topClaim_setLock {p : Port} {s : State} (h : topClaim p s = none) (k : Fin 8) (x : Lock) :
    topClaim p (s.setLock k x) = lockClaim p (s.setLock k x) k := by
  obtain ⟨hlocks, hdone⟩ := (topClaim_eq_none_iff p s).1 h
  have hone : allLocks.findSome? (lockClaim p (s.setLock k x)) = lockClaim p (s.setLock k x) k := by
    refine findSome?_eq_of_unique (List.mem_finRange k) fun j hj hjk => ?_
    rw [← hlocks j hj]
    simp [lockClaim, State.lock_setLock, hjk]
  have hnone : ∀ e ∈ (s.setLock k x).doneOrder, doneClaims p (s.setLock k x) e = false := fun e he => by
    rw [← hdone e he]
    simp [doneClaims]
  rw [topClaim, hone]
  cases hx : lockClaim p (s.setLock k x) k with
  | some a => rfl
  | none =>
    have hfind : (s.setLock k x).doneOrder.find? (doneClaims p (s.setLock k x)) = none :=
      List.find?_eq_none.2 fun e he => by rw [hnone e he]; decide
    show ((s.setLock k x).doneOrder.find? (doneClaims p (s.setLock k x))).map Claim.done = none
    rw [hfind]
    rfl

@[simp] theorem slotFree_setLock (p : Port) (s : State) (k : Fin 8) (x : Lock) : slotFree p (s.setLock k x) = slotFree p s := by
  simp [slotFree]

/-- The next claim for a port after a lock has changed, where none was due before. -/
theorem nextClaim_setLock {p : Port} {s : State} (h : nextClaim p s = none) (k : Fin 8) (x : Lock) :
    nextClaim p (s.setLock k x) = if slotFree p s then lockClaim p (s.setLock k x) k else none := by
  rw [nextClaim, slotFree_setLock]
  split
  · next hf => exact topClaim_setLock ((nextClaim_eq_none_iff p s).1 h hf) k x
  · rfl

/-- The lock's own claim before it changed, where a slot is free and nothing claims it. -/
theorem noLockClaim_of_quiet {p : Port} {s : State} (h : Quiet s) (hf : slotFree p s = true) (k : Fin 8) : NoLockClaim p s k :=
  (lockClaim_eq_none_iff p s k).1
    (((topClaim_eq_none_iff p s).1 ((nextClaim_eq_none_iff p s).1 (h.1 p) hf)).1 k (List.mem_finRange k))

/-! ## A lock handed on (R141, R142) -/

theorem leaseTicks_eq_msTicks (v : BitVec 16) : leaseTicks v = msTicks v := by
  have hz : v.toNat = 0 ↔ v = 0 := by
    rw [← BitVec.toNat_inj]
    rfl
  simp only [leaseTicks, msTicks, hz, Nat.mul_comm]

theorem Lock.handOn_nil {x : Lock} (hw : x.waiters = []) : x.handOn = x := by
  unfold Lock.handOn
  rw [hw]
  split <;> simp_all

theorem Lock.handOn_cons {x : Lock} {w : Waiter} {ws : List Waiter} (hh : x.holder = none) (ho : x.outbox = none)
    (hw : x.waiters = w :: ws) : x.handOn = { x with waiters := ws }.grant w.node w.port w.tag := by
  unfold Lock.handOn
  rw [hh, ho, hw]

@[simp] theorem lockClaim_setLock_self (p : Port) (s : State) (k : Fin 8) (x : Lock) :
    lockClaim p (s.setLock k x) k =
      if x.outbox.any (fun h => decide (h.port = p)) then some (.outbox k)
      else if x.expired.any (fun h => decide (h.port = p)) then some (.expired k)
      else none := by
  rw [lockClaim, State.lock_setLock_self]

/-- A lock that is free with an empty outbox, handed on where nothing else is to settle: its head waiter's grant takes a free slot, and the
lease starts, or waits in the outbox. -/
theorem settleWith_handOn {s : State} {k : Fin 8} (es : List Raise) (h : Quiet s) (hh : (s.lock k).holder = none)
    (ho : (s.lock k).outbox = none) :
    settleWith es (s.setLock k (s.lock k).handOn) = raiseAll es (handedOn k s) := by
  cases hw : (s.lock k).waiters with
  | nil =>
    rw [Lock.handOn_nil hw, State.setLock_lock, settleWith_of_quiet es s h]
    simp only [handedOn, hw]
  | cons w ws =>
    rw [Lock.handOn_cons hh ho hw]
    generalize hx : ({ s.lock k with waiters := ws }.grant w.node w.port w.tag) = x
    have hout : x.outbox = some { port := w.port, answer := answerOf w.node w.tag .ok (bytesBE 4 ((s.lock k).generation + 1).toNat) } := by
      rw [← hx]; rfl
    have hexp : x.expired = (s.lock k).expired := by rw [← hx]; rfl
    have hother : ∀ p, p ≠ w.port → nextClaim p (s.setLock k x) = none := by
      intro p hp
      rw [nextClaim_setLock (h.1 p)]
      split
      · next hf =>
        have hno := (noLockClaim_of_quiet h hf k).2
        simpa [hout, hexp, Ne.symm hp] using hno
      · rfl
    by_cases hf : slotFree w.port s = true
    · have hnext : nextClaim w.port (s.setLock k x) = some (.outbox k) := by
        rw [nextClaim_setLock (h.1 w.port), if_pos hf]
        simp [hout]
      have hplaced : placeClaim w.port (.outbox k) (s.setLock k x) = handedOn k s := by
        have hopen : (s.port w.port).link ≠ .down ∧ (s.port w.port).completions.length < 16 := by
          simpa [slotFree] using hf
        simp only [placeClaim, placeOutbox, State.lock_setLock_self, hout, Lock.outboxPlaced, handedOn, hw, if_pos hopen, if_true,
          answerOf, State.setLock_setLock, place, State.port_setLock]
        rw [← hx]
        simp only [Lock.grant, leaseTicks_eq_msTicks, ho]
      have hquiet : Quiet (handedOn k s) := by
        rw [← hplaced]
        simp only [placeClaim, placeOutbox, State.lock_setLock_self, hout, Lock.outboxPlaced, State.setLock_setLock]
        exact quiet_answered (q := { port := w.port, node := w.node, tag := w.tag })
          (quiet_setLock h k { x with outbox := none, lease := msTicks x.tLease } (by rw [ho]) (by simp only [hexp]))
      rw [settleWith_of_one es hnext (hother _ (by cases w.port <;> decide)) (by rwa [hplaced]), hplaced]
    · have hquiet : Quiet (s.setLock k x) := by
        refine ⟨fun p => ?_, by simpa using h.2.1, by simpa using h.2.2⟩
        by_cases hp : p = w.port
        · rw [hp, nextClaim_setLock (h.1 _), if_neg hf]
        · exact hother p hp
      have hfull : ¬ ((s.port w.port).link ≠ .down ∧ (s.port w.port).completions.length < 16) := by
        simpa [slotFree] using hf
      rw [settleWith_of_quiet es _ hquiet]
      simp only [handedOn, hw, if_neg hfull]
      rw [← hx]
      rfl

/-- As `settleWith_handOn`, at a lock given its free state in the same event. -/
theorem settleWith_setLock_handOn {s : State} {k : Fin 8} {x : Lock} (es : List Raise) (h : Quiet (s.setLock k x))
    (hh : x.holder = none) (ho : x.outbox = none) :
    settleWith es (s.setLock k x.handOn) = raiseAll es (handedOn k (s.setLock k x)) := by
  have hkey := settleWith_handOn (k := k) es h (by simpa using hh) (by simpa using ho)
  rwa [State.lock_setLock_self, State.setLock_setLock] at hkey

end Sys2Proof.Machine
end

section
/-! The lock unit's rows (07): ACQUIRE, RELEASE and BREAK, a lease's and a wait's expiry. -/

namespace Sys2Proof.Machine

open Sys2Proof.Safety

/-! ## Leases and waits that end (R148, R150) -/

/-- Settles O34: the hold ends, and the lock, free with an empty outbox, is handed on behind the raise. -/
theorem leaseExpiryEndsHold : Obligations.LeaseExpiryEndsHold := by
  intro k s
  refine ⟨fun n node port h hl hh ho => ?_, fun h hl => ?_⟩
  · have hexpire : expireLease k s = (s.setLock k (s.lock k).endHold, [lockRaise k (node, port) .lease]) := by
      simp only [expireLease, hl, hh]
    have hended : Quiet (s.setLock k { s.lock k with holder := none, lease := none }) := quiet_setLock h k _ rfl rfl
    have hsettle := settleWith_setLock_handOn (s := s) (k := k) (x := { s.lock k with holder := none, lease := none })
      [lockRaise k (node, port) .lease] hended rfl ho
    refine congrArg Host.Outcome.next ?_
    rw [hexpire]
    exact hsettle.trans (raise_handedOn _ k _)
  · have hexpire : expireLease k s = (s, []) := by simp only [expireLease, hl]
    refine congrArg Host.Outcome.next ?_
    rw [hexpire]
    exact settleWith_of_atRest [] s h

/-- The first waiter of a pair whose wait runs, found behind waiters of other pairs. -/
theorem find?_waiter {w : Waiter} {pre post : List Waiter} (hd : w.deadline ≠ none)
    (hpre : ∀ v ∈ pre, (v.node, v.port) ≠ (w.node, w.port)) :
    (pre ++ w :: post).find? (fun v => decide (v.node = w.node ∧ v.port = w.port ∧ v.deadline.isSome = true)) = some w := by
  have hfirst : pre.find? (fun v => decide (v.node = w.node ∧ v.port = w.port ∧ v.deadline.isSome = true)) = none := by
    refine List.find?_eq_none.2 fun v hv => ?_
    have hne := hpre v hv
    rw [Ne, Prod.mk.injEq] at hne
    simp only [decide_eq_true_eq]
    tauto
  rw [List.find?_append, hfirst, List.find?_cons_of_pos]
  · rfl
  · simpa using Option.ne_none_iff_isSome.1 hd

theorem erase_middle {α : Type} [BEq α] [LawfulBEq α] {a : α} {pre post : List α} (h : a ∉ pre) :
    (pre ++ a :: post).erase a = pre ++ post := by
  rw [List.erase_append_right _ h, List.erase_cons_head]

/-- The state after a wait has ended, before the slots are given out (R150). -/
theorem expireWait_of_waiter {k : Fin 8} {w : Waiter} {pre post : List Waiter} {s : State}
    (hw : (s.lock k).waiters = pre ++ w :: post) (hd : w.deadline ≠ none)
    (hpre : ∀ v ∈ pre, (v.node, v.port) ≠ (w.node, w.port)) :
    expireWait k w.node w.port s = s.setLock k { s.lock k with
      waiters := pre ++ post
      expired := (s.lock k).expired ++ [{ port := w.port, answer := answerOf w.node w.tag .timeout [] }] } := by
  have hnot : w ∉ pre := fun hmem => hpre w hmem rfl
  simp only [expireWait, hw, find?_waiter hd hpre, erase_middle hnot]

/-- The oldest expiry answer for a port, placed where older ones are for the other port (R151). -/
theorem placeExpired_of_first {k : Fin 8} {h : HeldAnswer} {pre post : List HeldAnswer} {s : State}
    (hx : (s.lock k).expired = pre ++ h :: post) (hpre : ∀ g ∈ pre, g.port ≠ h.port) :
    placeExpired k h.port s =
      place h.port h.answer (s.setLock k { s.lock k with expired := pre ++ post }) := by
  have hnot : h ∉ pre := fun hmem => hpre h hmem rfl
  have hfind : (pre ++ h :: post).find? (fun g => decide (g.port = h.port)) = some h := by
    have hfirst : pre.find? (fun g => decide (g.port = h.port)) = none :=
      List.find?_eq_none.2 fun g hg => by simpa using hpre g hg
    rw [List.find?_append, hfirst, List.find?_cons_of_pos (by simp)]
    rfl
  simp only [placeExpired, hx, hfind, erase_middle hnot]

/-- Settles O35: the TIMEOUT answer is the one claim that comes up; it takes a free slot, or stays with the lock. -/
theorem waitExpiryAnswersTimeout : Obligations.WaitExpiryAnswersTimeout := by
  intro k w pre post s
  refine ⟨fun h hw hd hpre => ?_, fun h hnone => ?_⟩
  · have hexec : exec (.waitExpiry k w.node w.port) s = .next (settle (expireWait k w.node w.port s)) := rfl
    rw [hexec, expireWait_of_waiter hw hd hpre]
    generalize ha : ({ port := w.port, answer := answerOf w.node w.tag .timeout [] } : HeldAnswer) = a
    have hap : a.port = w.port := by rw [← ha]
    have hother : ∀ p, p ≠ w.port → nextClaim p (s.setLock k { s.lock k with
        waiters := pre ++ post, expired := (s.lock k).expired ++ [a] }) = none := by
      intro p hp
      rw [nextClaim_setLock (h.1 p)]
      split
      · next hf =>
        have hclaim := (lockClaim_eq_none_iff p s k).2 (noLockClaim_of_quiet h hf k)
        rw [lockClaim] at hclaim
        simpa [hap, Ne.symm hp] using hclaim
      · rfl
    refine ⟨fun hf => congrArg _ ?_, fun hf => congrArg _ ?_⟩
    · have hno := noLockClaim_of_quiet h hf k
      have hnext : nextClaim w.port (s.setLock k { s.lock k with
          waiters := pre ++ post, expired := (s.lock k).expired ++ [a] }) = some (.expired k) := by
        rw [nextClaim_setLock (h.1 w.port), if_pos hf, lockClaim_setLock_self]
        have hout : (s.lock k).outbox.any (fun h => decide (h.port = w.port)) = false := by
          cases ho : (s.lock k).outbox with
          | none => rfl
          | some b => simpa using hno.1 b ho
        simp [hout, hap]
      have hplaced : placeClaim w.port (.expired k) (s.setLock k { s.lock k with
          waiters := pre ++ post, expired := (s.lock k).expired ++ [a] }) =
          answered { port := w.port, node := w.node, tag := w.tag } .timeout []
            (s.setLock k { s.lock k with waiters := pre ++ post }) := by
        have hfirst := placeExpired_of_first (k := k) (h := a) (pre := (s.lock k).expired) (post := [])
          (s := s.setLock k { s.lock k with waiters := pre ++ post, expired := (s.lock k).expired ++ [a] }) (by simp)
          (by rw [hap]; exact hno.2)
        rw [hap] at hfirst
        rw [placeClaim, hfirst]
        simp only [State.lock_setLock_self, State.setLock_setLock, List.append_nil]
        rw [← ha]
        rfl
      have hquiet := quiet_answered (q := { port := w.port, node := w.node, tag := w.tag }) (st := .timeout) (data := [])
        (quiet_setLock h k { s.lock k with waiters := pre ++ post } rfl rfl)
      have hsettle := settleWith_of_one [] hnext (hother _ (by cases w.port <;> decide)) (by rwa [hplaced])
      rw [hplaced] at hsettle
      exact hsettle
    · rw [show ({ node := w.node, tag := w.tag, status := .timeout, detail := none, data := [] } : Completion) =
        answerOf w.node w.tag .timeout [] from rfl, ha]
      refine settle_of_quiet _ ⟨fun p => ?_, by simpa using h.2.1, by simpa using h.2.2⟩
      by_cases hp : p = w.port
      · rw [hp, nextClaim_setLock (h.1 _), if_neg (by simp [hf])]
      · exact hother p hp
  · have hexpire : expireWait k w.node w.port s = s := by
      have hfind : (s.lock k).waiters.find? (fun v => decide (v.node = w.node ∧ v.port = w.port ∧ v.deadline.isSome = true)) = none := by
        refine List.find?_eq_none.2 fun v hv => ?_
        have hdead := hnone v hv
        rw [Prod.mk.injEq] at hdead
        simp only [decide_eq_true_eq]
        rintro ⟨hn, hp, hsome⟩
        rw [hdead ⟨hn, hp⟩] at hsome
        cases hsome
      simp only [expireWait, hfind]
    refine congrArg Host.Outcome.next ?_
    rw [hexpire]
    exact settle_of_atRest s h

/-! ## ACQUIRE (R140) -/

/-- The address of a lock object selects it (R54). -/
theorem selectLock_lockAddress (o : LockObject) : selectLock o.address = some o := by
  cases o with
  | acquire k => revert k; decide
  | release k => revert k; decide

/-- An ACQUIRE that its port can take at once is the lock unit's answer, settled (R54, R140). -/
theorem exec_acquire {q : Requester} {k : Fin 8} {s : State} (h : CanPresent q s) :
    exec (.acquire q k) s = .next (settle (acquire k q.node q.port q.tag (taken q s))) := by
  refine congrArg Host.Outcome.next ?_
  rw [presentRequest_control h (by decide) (by decide) rfl]
  simp only [handOff, requestFor, selectLock_lockAddress]
  rfl

theorem exec_acquire_of_quiet {q : Requester} {k : Fin 8} {s u : State} (h : CanPresent q s)
    (ha : acquire k q.node q.port q.tag (taken q s) = u) (hu : Quiet u) : exec (.acquire q k) s = .next u := by
  rw [exec_acquire h, ha, settle_of_quiet u hu]

theorem Lock.hasWaiter_iff (x : Lock) (node : Node) (p : Port) :
    x.hasWaiter node p = true ↔ ∃ w ∈ x.waiters, (w.node, w.port) = (node, p) := by
  simp [Lock.hasWaiter]

/-- Settles O36: the five branches of an ACQUIRE, each with its answer placed and nothing left to settle. -/
theorem acquireOutcomes : Obligations.AcquireOutcomes := by
  intro q k s h
  have hq := quiet_taken (q := q) h.1
  refine ⟨fun hh ho hw => ?_, fun hh => ?_, fun hh => ⟨fun hdup => ?_, fun hnew => ⟨fun hmany => ?_, fun hfew hbusy => ?_⟩⟩⟩
  · refine exec_acquire_of_quiet h ?_ (quiet_answered (quiet_setLock hq k _ (by simp [ho]) (by simp)))
    simp only [acquire, taken_lock]
    rw [if_pos ⟨hh, ho, hw⟩]
    simp only [placeOutbox, State.lock_setLock_self, Lock.grant, State.setLock_setLock, answerOf, Lock.outboxPlaced, if_true,
      leaseTicks_eq_msTicks, ho]
    rfl
  · refine exec_acquire_of_quiet h ?_ (quiet_answered (quiet_setLock hq k _ (by simp) (by simp)))
    simp only [acquire, taken_lock]
    rw [if_neg (by simp [hh]), if_pos hh, leaseTicks_eq_msTicks]
    rfl
  · have hsome : (s.lock k).waiters ≠ [] := by
      obtain ⟨w, hw, -⟩ := hdup
      exact List.ne_nil_of_mem hw
    refine exec_acquire_of_quiet h ?_ (quiet_answered hq)
    simp only [acquire, taken_lock]
    rw [if_neg (by simp [hsome]), if_neg hh, if_pos (((s.lock k).hasWaiter_iff _ _).2 hdup)]
    rfl
  · have hsome : (s.lock k).waiters ≠ [] := by
      rintro hnil
      rw [hnil] at hmany
      simp at hmany
    refine exec_acquire_of_quiet h ?_ (quiet_answered hq)
    simp only [acquire, taken_lock]
    rw [if_neg (by simp [hsome]), if_neg hh, if_neg, if_pos hmany]
    · rfl
    · rw [Lock.hasWaiter_iff]
      rintro ⟨w, hw, hpair⟩
      exact hnew w hw hpair
  · refine exec_acquire_of_quiet h ?_ (quiet_setLock hq k _ (by simp) (by simp))
    simp only [acquire, taken_lock]
    rw [if_neg (by tauto), if_neg hh, if_neg, if_neg (by omega)]
    · simp only [Lock.append, leaseTicks_eq_msTicks]
    · rw [Lock.hasWaiter_iff]
      rintro ⟨w, hw, hpair⟩
      exact hnew w hw hpair

/-! ## RELEASE and BREAK (R145, R147) -/

/-- A RELEASE that its port can take at once is the lock unit's answer, settled (R54, R145, R196). -/
theorem exec_release {q : Requester} {k : Fin 8} {g : Word32} {s : State} (h : CanPresent q s) :
    exec (.release q k g) s = .next (settle (release k q.node q.port q.tag g (taken q s))) := by
  have hvalue : BitVec.ofNat 32 (numBE (bytesBE 4 g.toNat)) = g := by
    rw [numBE_bytesBE, Nat.mod_eq_of_lt (show g.toNat < 256 ^ 4 from g.isLt), BitVec.ofNat_toNat, BitVec.setWidth_eq]
  refine congrArg Host.Outcome.next ?_
  rw [presentRequest_control h (by decide) (by decide) (by simp)]
  simp only [handOff, requestFor, selectLock_lockAddress, lockRequest, hvalue]
  rfl

/-- Where the requester's port has a slot to give, its own hold has no grant in the outbox (R104, R146). -/
theorem outbox_of_holder {q : Requester} {k : Fin 8} {s : State} (h : CanPresent q s) (hl : LockLaw s)
    (hh : (s.lock k).holder = some (q.node, q.port)) : (s.lock k).outbox = none := by
  cases ho : (s.lock k).outbox with
  | none => rfl
  | some a =>
    obtain ⟨-, -, -, hgrant, -⟩ := hl k
    have hport : a.port = q.port := by
      rcases hgrant a ho with ⟨-, hhold⟩ | ⟨-, hhold⟩
      · rw [hh, Option.some.injEq, Prod.mk.injEq] at hhold
        exact hhold.2.symm
      · rw [hh] at hhold
        cases hhold
    exact absurd hport (outbox_of_slotForHead (slotForHead_of_canPresent h) ho)

/-- Settles O37: a hold that ends leaves the lock to be handed on behind the answer. -/
theorem releaseOutcomes : Obligations.ReleaseOutcomes := by
  intro q k g s h hl
  have hq := quiet_taken (q := q) h.1
  refine ⟨fun hh hg => ?_, fun hnot => ?_⟩
  · have ho := outbox_of_holder h hl hh
    have hfree : Quiet (answered q .ok [] ((taken q s).setLock k { s.lock k with holder := none, lease := none })) :=
      quiet_answered (quiet_setLock hq k _ (by simp) (by simp))
    have hrelease : release k q.node q.port q.tag g (taken q s) =
        (answered q .ok [] (taken q s)).setLock k { s.lock k with holder := none, lease := none }.handOn := by
      simp only [release, taken_lock]
      rw [if_pos ⟨hh, hg⟩, place_answerOf, Lock.endHold, answered, State.port_setLock, State.setPort_setLock]
      rfl
    have hcomm : answered q .ok [] ((taken q s).setLock k { s.lock k with holder := none, lease := none }) =
        (answered q .ok [] (taken q s)).setLock k { s.lock k with holder := none, lease := none } := by
      simp only [answered, State.port_setLock, State.setPort_setLock]
    rw [hcomm] at hfree
    rw [exec_release h, hrelease, hcomm]
    exact congrArg _ (settleWith_setLock_handOn [] hfree rfl ho)
  · rw [exec_release h, release, taken_lock, if_neg (by tauto), place_answerOf]
    exact congrArg _ (settle_of_quiet _ (quiet_answered hq))

/-- A BREAK of a manager's is answered OK behind what it makes of the lock (R147). -/
theorem exec_breakLock {q : Requester} {k : Fin 8} {s : State} (h : ManagerCanPresent q s) :
    exec (.breakLock q k) s = .next (settleWith (breakRaises k s) (answered q .ok [] (breakHold k (taken q s)))) := by
  have hraises : breakRaises k (taken q s) = breakRaises k s := by rw [breakRaises, taken_lock, breakRaises]
  refine congrArg Host.Outcome.next ?_
  rw [presentWrite_of_manager h rfl (by simp [Field.width])]
  simp only [fieldRaises, writeField, writeBreak, if_true, hraises]

theorem answered_setLock (q : Requester) (st : Status) (data : List Byte) (s : State) (k : Fin 8) (x : Lock) :
    answered q st data (s.setLock k x) = (answered q st data s).setLock k x := by
  simp only [answered, State.port_setLock, State.setPort_setLock]

/-- Settles O38: a placed holder's lock is handed on, a grant in the outbox stays there as LOCK_BROKEN. -/
theorem breakOutcomes : Obligations.BreakOutcomes := by
  intro q k s h
  have hq := quiet_taken (q := q) h.1.1
  refine ⟨fun node port hh => ⟨fun ho => ?_, fun a ho => ?_⟩, fun hh => ?_⟩
  · have hbreak : breakHold k (taken q s) = (taken q s).setLock k { s.lock k with holder := none, lease := none }.handOn := by
      simp only [breakHold, taken_lock, hh, ho, Lock.endHold]
    have hraises : breakRaises k s = [lockRaise k (node, port) .broken] := by rw [breakRaises, hh]; rfl
    have hfree : Quiet ((answered q .ok [] (taken q s)).setLock k { s.lock k with holder := none, lease := none }) :=
      quiet_setLock (quiet_answered hq) k _ (by simp [answered]) (by simp [answered])
    rw [exec_breakLock h, hbreak, answered_setLock, hraises, settleWith_setLock_handOn _ hfree rfl ho, ← answered_setLock,
      ← raise_answered, ← raise_handedOn]
    rfl
  · have hbreak : breakHold k (taken q s) = (taken q s).setLock k { s.lock k with
        holder := none, lease := none, outbox := some a.broken } := by
      simp only [breakHold, taken_lock, hh, ho]
    have hraises : breakRaises k s = [lockRaise k (node, port) .broken] := by rw [breakRaises, hh]; rfl
    have hquiet : Quiet (answered q .ok [] ((taken q s).setLock k { s.lock k with
        holder := none, lease := none, outbox := some a.broken })) :=
      quiet_answered (quiet_setLock hq k _ (by simp [ho, HeldAnswer.broken]) (by simp))
    rw [exec_breakLock h, hbreak, hraises, settleWith_of_quiet _ _ hquiet, ← raise_answered]
    rfl
  · have hbreak : breakHold k (taken q s) = taken q s := by simp only [breakHold, taken_lock, hh]
    have hraises : breakRaises k s = [] := by rw [breakRaises, hh]; rfl
    rw [exec_breakLock h, hbreak, hraises]
    exact congrArg _ (settle_of_quiet _ (quiet_answered hq))

end Sys2Proof.Machine
end

section
/-! The soft reset (09 9.6): every block at its soft-reset values at one event. -/

namespace Sys2Proof.Machine

open Sys2Proof.Safety

/-! ## Flushed notices as sums (R134, R167) -/

theorem noticesOf_append (xs ys : List EgressPacket) : noticesOf (xs ++ ys) = noticesOf xs ++ noticesOf ys := by
  simp [noticesOf]

theorem flushedLosses_eq (ks : List EgressPacket) : ((noticesOf ks).map (fun n => 1 + n.dropped)).sum = flushedLosses ks := by
  induction ks with
  | nil => rfl
  | cons k ks ih =>
    have hcons : flushedLosses (k :: ks) = (match k with
      | .notice n => 1 + n.dropped
      | _ => 0) + flushedLosses ks := rfl
    rw [hcons, ← ih]
    cases k <;> simp [noticesOf]

theorem noticeCount_eq (ks : List EgressPacket) : (noticesOf ks).length = noticeCount ks := by
  induction ks with
  | nil => rfl
  | cons k ks ih =>
    have hcons : noticeCount (k :: ks) = noticeCount ks + (match k with
      | .notice _ => 1
      | _ => 0) := by
      cases k <;> simp [noticeCount]
    rw [hcons, ← ih]
    cases k <;> simp [noticesOf]

/-- Losses counted one after the other are counted as their sums, where there is one at least. -/
theorem foldl_dropped_cons (n : StampedNotice) (ns : List StampedNotice) (u : NoticeUnit) :
    (n :: ns).foldl (fun u n => u.dropped (1 + n.dropped) 1) u =
      u.dropped (((n :: ns).map (fun n => 1 + n.dropped)).sum) (n :: ns).length := by
  induction ns generalizing n u with
  | nil => simp
  | cons m ns ih =>
    rw [List.foldl_cons, ih m, NoticeUnit.dropped_dropped]
    simp [Nat.add_comm, Nat.add_left_comm]

theorem foldl_dropped_dropped (ns : List StampedNotice) (u : NoticeUnit) (a b : Nat) :
    (ns.foldl (fun u n => u.dropped (1 + n.dropped) 1) u).dropped a b =
      u.dropped ((ns.map (fun n => 1 + n.dropped)).sum + a) (ns.length + b) := by
  cases ns with
  | nil => simp
  | cons n ns => rw [foldl_dropped_cons, NoticeUnit.dropped_dropped]

/-! ## The blocks after a soft reset (R191) -/

theorem softReset_free (e : Fin 64) (s : State) : (softReset s).entry e = none := by
  simp [softReset, State.entry]

/-- A soft reset counts the flushed and the queued notices as lost (R134, R167, R170). -/
theorem softReset_notices (s : State) :
    (softReset s).notices =
      { lost s.notices (s.notices.queue.length + flushedLosses (s.portU.egress ++ s.portD.egress))
          (s.notices.queue.length + noticeCount (s.portU.egress ++ s.portD.egress)) with queue := [] } := by
  have hqueue : ∀ ns : List StampedNotice, (ns.foldl (fun u n => u.dropped (1 + n.dropped) 1) s.notices).queue = s.notices.queue :=
    fun ns => by rw [foldl_dropped_eq]
  rw [← flushedLosses_eq, ← noticeCount_eq, noticesOf_append, ← NoticeUnit.dropped_eq_lost]
  show NoticeUnit.drained (List.foldl _ s.notices _) = _
  rw [NoticeUnit.drained, foldl_dropped_dropped, hqueue, Nat.add_comm s.notices.queue.length, Nat.add_comm s.notices.queue.length]

/-- After a soft reset no lock, no entry and no head has anything to claim or to judge. -/
theorem softReset_quiet (s : State) : Quiet (softReset s) := by
  have hhead : ∀ p, ((softReset s).port p).headWaits = false := fun p => by rw [softReset_port]; rfl
  refine ⟨fun p => (nextClaim_eq_none_iff p _).2 fun _ => (topClaim_eq_none_iff p _).2 ⟨fun k _ => ?_, fun e he => ?_⟩,
    hhead .u, hhead .d⟩
  · simp [lockClaim, Lock.softReset]
  · cases he

/-- Settles O48: a manager's write of 1 to RESET leaves the part at the soft-reset values, quiet, behind the answer. -/
theorem softResetOutcome : Obligations.SoftResetOutcome := by
  intro q s h
  have hegress : ∀ p, ((taken q s).port p).egress = (s.port p).egress := fun p => by rw [taken_port]
  have hqueues : (taken q s).portU.egress = s.portU.egress ∧ (taken q s).portD.egress = s.portD.egress := ⟨hegress .u, hegress .d⟩
  refine ⟨softReset (taken q s), ?_, fun p => softReset_port _ p, fun t w => ?_, fun e => softReset_free e _, rfl, fun k => ?_, ?_, ?_⟩
  · exact congrArg _ (presentWrite_of_quiet (f := .reset) (v := 1) h rfl (by simp [Field.width]) rfl rfl (softReset_quiet (taken q s)))
  · rw [softReset_window, taken_window]
    rfl
  · rw [softReset_lock, taken_lock]
    rfl
  · rw [softReset_notices, taken_notices, hqueues.1, hqueues.2]
  · simp [softReset, taken]

end Sys2Proof.Machine
end

section
/-! The management agent's addresses (09 9.1, Table 11-10): what an address that selects a field is. -/

namespace Sys2Proof.Machine

open Sys2Proof.Safety

/-! ## The address that selects a field (R174) -/

/-- What the parts `cls`, `index` and `offset` select stands there: a field whole at its address, a part of it 4 bytes inside. -/
def StandsAt (cls index offset : Nat) (o : Option (Field × Bool)) : Prop :=
  ∀ f whole, o = some (f, whole) →
    controlAddress cls index offset = (if whole then f.address else f.address + 4) ∧ (whole = false → f.width = 8)

theorem StandsAt.nothing {cls index offset : Nat} : StandsAt cls index offset none := fun _ _ h => by cases h

theorem StandsAt.whole {cls index offset : Nat} {f : Field} (h : f.address = controlAddress cls index offset) :
    StandsAt cls index offset (some (f, true)) := by
  rintro g whole ⟨⟩
  exact ⟨h.symm, fun hw => by cases hw⟩

theorem StandsAt.part {cls index offset : Nat} {f : Field} (h : f.address = controlAddress cls index offset) (hw : f.width = 8) :
    StandsAt cls index (offset + 4) (some (f, false)) := by
  rintro g whole ⟨⟩
  refine ⟨?_, fun _ => hw⟩
  rw [if_neg (by decide), h]
  simp only [controlAddress, ← Nat.add_assoc, BitVec.ofNat_add]
  rfl

theorem windowField_standsAt (t : Dir) (w : Fin 16) (offset : Nat) :
    StandsAt (tableClass t) w.val offset (windowField t w offset) := by
  unfold windowField
  split
  · exact .whole rfl
  · exact .whole rfl
  · exact .whole rfl
  · exact .part (offset := 0x08) rfl rfl
  · exact .whole rfl
  · exact .part (offset := 0x10) rfl rfl
  · exact .whole rfl
  · exact .part (offset := 0x18) rfl rfl
  · exact .whole rfl
  · exact .whole rfl
  · exact .whole rfl
  · exact .whole rfl
  · exact .whole rfl
  · exact .part (offset := 0x30) rfl rfl
  · exact .whole rfl
  · exact .nothing

theorem portField_standsAt (p : Port) (offset : Nat) : StandsAt 0x02 (portIndex p) offset (portField p offset) := by
  unfold portField
  split
  iterate 9 exact .whole rfl
  exact .nothing

theorem identField_standsAt (offset : Nat) : StandsAt 0x01 0 offset (identField offset) := by
  unfold identField
  split
  iterate 4 exact .whole rfl
  exact .nothing

theorem settingsField_standsAt (offset : Nat) : StandsAt 0x20 0 offset (settingsField offset) := by
  unfold settingsField
  split
  iterate 6 exact .whole rfl
  exact .nothing

theorem entryField_standsAt (e : Fin 64) (offset : Nat) : StandsAt 0x21 e.val offset (entryField e offset) := by
  unfold entryField
  split
  iterate 5 exact .whole rfl
  exact .nothing

theorem lockField_standsAt (k : Fin 8) (offset : Nat) : StandsAt 0x30 k.val offset (lockField k offset) := by
  unfold lockField
  split
  iterate 6 exact .whole rfl
  exact .nothing

theorem noticeCode_of_ofCode {n : Nat} {x : NoticeKind} (h : noticeOfCode n = some x) : noticeCode x = n := by
  unfold noticeOfCode at h
  split at h <;> cases h <;> rfl

theorem noticeField_standsAt (offset : Nat) : StandsAt 0x40 0 offset (noticeField offset) := by
  unfold noticeField
  split
  iterate 6 exact .whole rfl
  next h0 _ _ _ _ _ =>
    split
    · next hmod =>
      rintro f whole hf
      obtain ⟨x, hx, hfx⟩ := Option.map_eq_some_iff.1 hf
      cases hfx
      have hcode := noticeCode_of_ofCode hx
      have hoffset : 4 + 4 * noticeCode x = offset := by
        have hpos : offset ≠ 0 := h0
        omega
      refine StandsAt.whole ?_ _ _ rfl
      rw [Field.address, hoffset]
    · exact .nothing

/-- Every part of an address selects a field at that field's place (Table 11-10). -/
theorem objectField_standsAt (cls index offset : Nat) : StandsAt cls index offset (objectField cls index offset) := by
  unfold objectField
  split
  · split
    · next h => subst h; exact identField_standsAt offset
    · exact .nothing
  · split
    · next h => subst h; exact portField_standsAt .u offset
    · split
      · next h => subst h; exact portField_standsAt .d offset
      · exact .nothing
  · split
    · next h => exact windowField_standsAt .down ⟨index, h⟩ offset
    · exact .nothing
  · split
    · next h => exact windowField_standsAt .up ⟨index, h⟩ offset
    · exact .nothing
  · split
    · next h => subst h; exact settingsField_standsAt offset
    · exact .nothing
  · split
    · next h => exact entryField_standsAt ⟨index, h⟩ offset
    · exact .nothing
  · split
    · next h => exact lockField_standsAt ⟨index, h⟩ offset
    · exact .nothing
  · split
    · next h => subst h; exact noticeField_standsAt offset
    · exact .nothing
  · split
    · split
      · next h => subst h; exact .whole rfl
      · exact .nothing
    · exact .nothing
  · split
    · next h => obtain ⟨rfl, rfl⟩ := h; exact .whole rfl
    · exact .nothing
  · split
    · next h => obtain ⟨rfl, rfl⟩ := h; exact .whole rfl
    · exact .nothing
  · exact .nothing

/-- An address without a bit above 23 is made of its three parts (Table 11-5). -/
theorem eq_controlAddress {a : Addr} (h : bitsOf a.toNat 39 24 = 0) : a = controlAddress (classPart a) (indexPart a) (offsetPart a) := by
  have hlt := a.isLt
  apply BitVec.eq_of_toNat_eq
  rw [controlAddress, BitVec.toNat_ofNat, classPart, indexPart, offsetPart]
  simp only [bitsOf] at h ⊢
  omega

/-- What an address selects stands there (R174). -/
theorem selectField_eq {a : Addr} {f : Field} {whole : Bool} (h : selectField a = some (f, whole)) :
    a = (if whole then f.address else f.address + 4) ∧ (whole = false → f.width = 8) := by
  unfold selectField at h
  split at h
  · cases h
  · next hbits =>
    have hplace := objectField_standsAt _ _ _ f whole h
    rwa [← eq_controlAddress (not_not.1 hbits)] at hplace

/-- An address that selects a lock object is that object's (R54, R174). -/
theorem selectLock_eq {a : Addr} {o : LockObject} (h : selectLock a = some o) : a = o.address := by
  unfold selectLock at h
  split at h
  · next hcond =>
    obtain ⟨hbits, hclass⟩ := hcond
    split at h
    · have ha := eq_controlAddress hbits
      rw [hclass] at ha
      split at h
      · next hoff => cases h; rw [hoff] at ha; exact ha
      · next hoff => cases h; rw [hoff] at ha; exact ha
      · cases h
    · cases h
  · cases h

/-- A lock object is no field of the management agent (R185). -/
theorem selectField_lockAddress (o : LockObject) : selectField o.address = none := by
  cases o with
  | acquire k => revert k; decide
  | release k => revert k; decide

theorem selectLock_of_selectField {a : Addr} {f : Field} {whole : Bool} (h : selectField a = some (f, whole)) : selectLock a = none := by
  cases ho : selectLock a with
  | none => rfl
  | some o =>
    rw [selectLock_eq ho, selectField_lockAddress] at h
    cases h

/-- Settles O27: the places of Table 11-10 in one direction, the parts of an address in the other. -/
theorem fieldAddressesDecode : Obligations.FieldAddressesDecode := by
  refine ⟨fun f => ⟨selectField_address f, selectLock_address f⟩, fun o => ⟨selectLock_lockAddress o, selectField_lockAddress o⟩,
    fun a f h => ?_, fun a f h => ?_, fun a o h => selectLock_eq h, fun a ha => ?_⟩
  · exact (selectField_eq h).1
  · obtain ⟨haddr, hwidth⟩ := selectField_eq h
    exact ⟨hwidth rfl, haddr⟩
  · have hbits : bitsOf a.toNat 39 24 ≠ 0 := by
      have hlt := a.isLt
      simp only [bitsOf]
      omega
    exact ⟨if_pos hbits, if_neg fun h => hbits h.1⟩

end Sys2Proof.Machine
end

section
/-! The management agent's judgement of a request (09 9.1 to 9.4, 7.1, 7.2), in the order of Table 9-2. -/

namespace Sys2Proof.Machine

open Sys2Proof.Safety

/-! ## The judgement, case by case (R139, R179) -/

/-- The agent and the lock unit make of a request from `q` the answer `st` with `data`, and the raises `es`, and change nothing else. -/
def Judged (q : Requester) (r : Request) (s : State) (st : Status) (data : List Byte) (es : List Raise) : Prop :=
  handOff q.port r s = (answered q st data s, es)

section

variable {q : Requester} {kind : ReqKind} {a : Addr} {n : BitVec 16} {data : List Byte} {s u : State} {f : Field} {whole : Bool}

theorem judged_of_manage {q : Requester} {r : Request} {st : Status} {data : List Byte} {es : List Raise} {s : State}
    (hn : r.src = q.node) (ht : r.tag = q.tag) (hl : selectLock r.address = none)
    (hm : manage q.port r s = { status := st, data := data, state := s, raises := es }) : Judged q r s st data es := by
  unfold Judged handOff
  rw [hl, hm, hn, ht]
  rfl

/-- Table 9-2, step 1: no field (R174). -/
theorem judged_badObject (hl : selectLock a = none) (hf : selectField a = none) :
    Judged q (requestFor q kind a n data s) u .badObject [] [] := by
  refine judged_of_manage rfl rfl hl ?_
  have haddr : (requestFor q kind a n data s).address = a := rfl
  rw [manage, haddr, hf]

/-- Step 2: not a manager, and not IDENT (R177). -/
theorem judged_denied (hf : selectField a = some (f, whole)) (ho : f.open? = false) (hm : u.manager q.node q.port = false) :
    Judged q (requestFor q kind a n data s) u .denied [] [deniedRaise q.port (requestFor q kind a n data s)] := by
  refine judged_of_manage rfl rfl (selectLock_of_selectField hf) ?_
  have haddr : (requestFor q kind a n data s).address = a := rfl
  have hsrc : (requestFor q kind a n data s).src = q.node := rfl
  rw [manage, haddr, hf]
  dsimp only
  rw [hsrc, ho, hm]
  rfl

/-- Step 3: a part of a field, or another length than the field's (R175). -/
theorem judged_badLength (hf : selectField a = some (f, whole)) (ho : f.open? = true ∨ u.manager q.node q.port = true)
    (hw : whole = false ∨ n.toNat ≠ f.width) : Judged q (requestFor q kind a n data s) u .badLength [] [] := by
  refine judged_of_manage rfl rfl (selectLock_of_selectField hf) ?_
  have haddr : (requestFor q kind a n data s).address = a := rfl
  have hsrc : (requestFor q kind a n data s).src = q.node := rfl
  have hlen : (requestFor q kind a n data s).length = n := rfl
  rw [manage, haddr, hf]
  dsimp only
  rw [hsrc, hlen, if_neg (by rcases ho with h | h <;> simp [h]), if_pos (by simpa using hw)]

/-- A request for a whole field by someone who may make it, up to the judgement of its kind. -/
theorem manage_of_whole (hf : selectField a = some (f, true)) (ho : f.open? = true ∨ u.manager q.node q.port = true)
    (hw : n.toNat = f.width) :
    manage q.port (requestFor q kind a n data s) u =
      (match kind with
      | .rd => { status := .ok, data := bytesBE f.width (readField f u), state := u, raises := [] }
      | _ =>
        if f.writable then
          { status := (writeField f (numBE data) u).1, data := [], state := (writeField f (numBE data) u).2
            raises := fieldRaises f (numBE data) u }
        else { status := .readOnly, data := [], state := u, raises := [] }) := by
  have haddr : (requestFor q kind a n data s).address = a := rfl
  have hsrc : (requestFor q kind a n data s).src = q.node := rfl
  have hlen : (requestFor q kind a n data s).length = n := rfl
  rw [manage, haddr, hf]
  dsimp only
  rw [hsrc, hlen, if_neg (by rcases ho with h | h <;> simp [h]), if_neg (by simp [hw])]
  cases kind <;> rfl

/-- A read of a whole field (R175). -/
theorem judged_read (hf : selectField a = some (f, true)) (ho : f.open? = true ∨ u.manager q.node q.port = true)
    (hw : n.toNat = f.width) :
    Judged q (requestFor q .rd a n data s) u .ok (bytesBE f.width (readField f u)) [] :=
  judged_of_manage rfl rfl (selectLock_of_selectField hf) (manage_of_whole hf ho hw)

/-- Step 4: a field that cannot be written (R175). -/
theorem judged_readOnly (hf : selectField a = some (f, true)) (ho : f.open? = true ∨ u.manager q.node q.port = true)
    (hw : n.toNat = f.width) (hro : f.writable = false) : Judged q (requestFor q .cw a n data s) u .readOnly [] [] := by
  refine judged_of_manage rfl rfl (selectLock_of_selectField hf) ?_
  rw [manage_of_whole hf ho hw]
  dsimp only
  rw [if_neg (by simp [hro])]

/-- Step 5: the owner refuses the value (R179). -/
theorem judged_refused {st : Status} (hf : selectField a = some (f, true)) (ho : f.open? = true ∨ u.manager q.node q.port = true)
    (hw : n.toNat = f.width) (hwr : f.writable = true) (hv : writeField f (numBE data) u = (st, u))
    (hr : fieldRaises f (numBE data) u = []) : Judged q (requestFor q .cw a n data s) u st [] [] := by
  refine judged_of_manage rfl rfl (selectLock_of_selectField hf) ?_
  rw [manage_of_whole hf ho hw]
  dsimp only
  rw [if_pos hwr, hv, hr]

/-- At a lock object the lock unit judges the form (R139). -/
theorem judged_lockRequest {o : LockObject} {st : Status}
    (h : lockRequest q.port o (requestFor q kind o.address n data s) u = answered q st [] u) :
    Judged q (requestFor q kind o.address n data s) u st [] [] := by
  have haddr : (requestFor q kind o.address n data s).address = o.address := rfl
  unfold Judged handOff
  rw [haddr, selectLock_lockAddress]
  exact congrArg (·, []) h

end

/-! ## A request judged at the head of its buffer (R48, R54) -/

/-- The answer and the raises of a judgement that changes nothing, settled on a quiet part. -/
theorem settleWith_of_judged {q : Requester} {r : Request} {s : State} {st : Status} {data : List Byte} {es : List Raise}
    (h : Judged q r s st data es) (hq : Quiet s) :
    settleWith (handOff q.port r s).2 (handOff q.port r s).1 = raiseAll es (answered q st data s) := by
  rw [h]
  exact settleWith_of_quiet es _ (quiet_answered hq)

theorem slotForHead_of_quiet {p : Port} {s : State} (h : Quiet s) (hl : (s.port p).link ≠ .down)
    (hc : (s.port p).completions.length < 16) : slotForHead p s = true := by
  have hf : slotFree p s = true := by simp [slotFree, hl, hc]
  simp [slotForHead, hf, (nextClaim_eq_none_iff p s).1 (h.1 p) hf]

/-- A take leaves nothing new to settle. -/
theorem quiet_headTaken {p : Port} {counted : Bool} {s : State} (h : Quiet s) : Quiet (headTaken p counted s) := by
  have hport : ∀ q, ((headTaken p counted s).port q).link = (s.port q).link ∧
      ((headTaken p counted s).port q).completions = (s.port q).completions ∧
      ((headTaken p counted s).port q).headWaits = false := by
    intro q
    have hw : (s.port q).headWaits = false := by
      cases q
      · exact h.2.1
      · exact h.2.2
    by_cases hq : q = p
    · subst hq; simp [headTaken]
    · simp [headTaken, hq, hw]
  have hheads : ∀ q, (s.port q).headWaits = false := by
    intro q
    cases q
    · exact h.2.1
    · exact h.2.2
  refine quiet_congr h (fun q => (hport q).1) (fun q => (hport q).2.1) (fun q => ?_) ?_ ?_ ?_ ?_
  · rw [(hport q).2.2, hheads]
  all_goals simp [headTaken]

/-- A head of the bridge's own, judged where a slot is free: it is taken and handed off (R50, R54). -/
theorem exec_admissionJudgement_of_judged {q : Requester} {a : Addr} {n : BitVec 16} {data : List Byte} {rest : List Request}
    {s : State} {st : Status} {ans : List Byte} {es : List Raise} {kind : ReqKind} (h : Quiet s)
    (hl : (s.port q.port).link ≠ .down) (hc : (s.port q.port).completions.length < 16)
    (hi : (s.port q.port).ingress = requestFor q kind a n data s :: rest) (hkind : kind ≠ .pw) (hn : 1 ≤ n.toNat ∧ n.toNat ≤ 256)
    (hdata : data.length = if kind = .rd then 0 else n.toNat)
    (hj : Judged q (requestFor q kind a n data s) (headTaken q.port true s) st ans es) :
    exec (.admissionJudgement q.port) s = .next (raiseAll es (answered q st ans (headTaken q.port true s))) := by
  have hd : disposal q.port (requestFor q kind a n data s) s = .handOff :=
    disposal_control rfl rfl hkind hn hdata
  refine congrArg Host.Outcome.next ?_
  rw [judgeHead_of_take _ _ _ rest hi (by rw [hd, atHand, slotForHead_of_quiet h hl hc]), hd, carryOut, take_eq_headTaken]
  exact settleWith_of_judged hj (quiet_headTaken h)

/-- A request presented where it can be taken at once, with a judgement that changes nothing (R48, R54). -/
theorem presentRequest_of_judged {q : Requester} {kind : ReqKind} {a : Addr} {n : BitVec 16} {data : List Byte} {s : State}
    {st : Status} {ans : List Byte} {es : List Raise} (h : CanPresent q s) (hkind : kind ≠ .pw)
    (hn : 1 ≤ n.toNat ∧ n.toNat ≤ 256) (hdata : data.length = if kind = .rd then 0 else n.toNat)
    (hj : Judged q (requestFor q kind a n data s) (taken q s) st ans es) :
    presentRequest q.port (requestFor q kind a n data s) s = raiseAll es (answered q st ans (taken q s)) := by
  rw [presentRequest_control h hkind hn hdata]
  exact settleWith_of_judged hj (quiet_taken h.1)

/-! ## Management writes (R139, R179) -/

/-- Settles O49: the steps of Table 9-2 in their order, and the same request for a row that spells it. -/
theorem registerWriteJudgement : Obligations.RegisterWriteJudgement := by
  intro q a n data s h hdata h1 h256
  have hexec : exec (.registerWrite q a n data) s = .next (presentRequest q.port (requestFor q .cw a n data s) s) := rfl
  have hjudged : ∀ {st es}, Judged q (requestFor q .cw a n data s) (taken q s) st [] es →
      exec (.registerWrite q a n data) s = .next (raiseAll es (answered q st [] (taken q s))) := fun hj => by
    rw [hexec, presentRequest_of_judged h (by decide) ⟨h1, h256⟩ hdata hj]
  refine ⟨fun hl hf => hjudged (judged_badObject hl hf), fun f whole hf => ⟨fun ho hm => ?_, fun ho => ?_⟩, fun k ha => ?_,
    fun k ha hn => ?_, fun c r hc hr => ?_⟩
  · rw [hjudged (judged_denied hf ho (by rwa [taken_manager]))]
    exact congrArg _ (raise_answered _ q .denied [] _)
  · have hallowed : f.open? = true ∨ (taken q s).manager q.node q.port = true := by rwa [taken_manager]
    refine ⟨fun hw => hjudged (judged_badLength hf hallowed hw), fun hwhole hw => ⟨fun hro => ?_, fun hfield hv => ?_,
      fun t w hfield hv => ?_⟩⟩ <;> subst hwhole
    · exact hjudged (judged_readOnly hf hallowed hw hro)
    · rcases hfield with ⟨k, rfl⟩ | rfl
      · exact hjudged (judged_refused hf hallowed hw rfl (if_neg hv) (if_neg hv))
      · exact hjudged (judged_refused hf hallowed hw rfl (if_neg hv) rfl)
    · subst hfield
      refine hjudged (judged_refused hf hallowed hw rfl ?_ rfl)
      show windowCommand t w (numBE data) (taken q s) = _
      unfold windowCommand
      split
      · omega
      · omega
      · omega
      · rfl
  · subst ha
    exact hjudged (judged_lockRequest rfl)
  · subst ha
    refine hjudged (judged_lockRequest ?_)
    exact if_neg hn
  · rw [hexec, exec_requestOf c q.port r s hc, hr]

/-! ## Management reads (R175, R180, R183, R195) -/

theorem headTaken_manager (p : Port) (counted : Bool) (s : State) (node : Node) (q : Port) :
    (headTaken p counted s).manager node q = s.manager node q := by
  simp [headTaken, State.manager]

/-- A read of the bridge's own at the head: answered with the field, or refused, behind its take. -/
theorem exec_read_of_judged {q : Requester} {a : Addr} {n : BitVec 16} {rest : List Request} {s : State} {st : Status}
    {ans : List Byte} {es : List Raise} (h : Quiet s) (hl : (s.port q.port).link ≠ .down)
    (hc : (s.port q.port).completions.length < 16) (hi : (s.port q.port).ingress = requestFor q .rd a n [] s :: rest)
    (hn : 1 ≤ n.toNat ∧ n.toNat ≤ 256) (hj : Judged q (requestFor q .rd a n [] s) (headTaken q.port true s) st ans es) :
    exec (.admissionJudgement q.port) s = .next (raiseAll es (answered q st ans (headTaken q.port true s))) :=
  exec_admissionJudgement_of_judged h hl hc hi (by decide) hn rfl hj

theorem Field.width_bounds (f : Field) : 1 ≤ (BitVec.ofNat 16 f.width).toNat ∧ (BitVec.ofNat 16 f.width).toNat ≤ 256 := by
  rw [f.toNat_width]
  rcases f.width_eq with h | h <;> omega

/-- The codes of the link states, of tSTALL, of tCTO and of the classes (Table 11-9). -/
theorem readField_port (p : Port) (s : State) :
    readField (.linkState p) s = (match (s.port p).link with
      | .down => 0
      | .up => 1
      | .stalled => 2) ∧
    readField (.tStall p) s = (match (s.port p).tStall with
      | .off => 0
      | .us100 => 1
      | .ms1 => 2
      | .ms10 => 3) := by
  refine ⟨?_, ?_⟩
  · cases h : (s.port p).link <;> simp only [readField, h, LinkState.code]
  · cases h : (s.port p).tStall <;> simp only [readField, h, TStall.code]

theorem readField_tcto (x : Dir) (s : State) :
    readField (.tcto x) s = (match s.tcto x with
      | .off => 0
      | .ms1 => 1
      | .ms8 => 2
      | .ms64 => 3
      | .ms512 => 4) := by
  cases h : s.tcto x <;> simp only [readField, h, TCto.code]

theorem readField_noticeClass (n : NoticeKind) (s : State) :
    readField (.noticeClass n) s = (match s.noticeClass n with
      | .off => 0
      | .routine => 1
      | .urgent => 2) := by
  cases h : s.noticeClass n <;> simp only [readField, h, NoticeClass.code]

theorem readField_noticePort (s : State) :
    readField .noticePort s = (match s.notices.targetPort with
      | none => 0
      | some .u => 1
      | some .d => 2) := by
  cases h : s.notices.targetPort with
  | none => simp only [readField, h, targetPortCode]
  | some p => cases p <;> simp only [readField, h, targetPortCode]

/-- in_use counts the entries of the direction (R100, R195). -/
theorem readField_inUse (x : Dir) (s : State) :
    readField (.inUse x) s = (List.finRange 64).countP (fun e => match s.entry e with
      | some y => decide (y.dir = x)
      | none => false) := by
  rw [readField, s.inUse_eq]
  refine congrArg (List.countP · allEntries) (funext fun e => ?_)
  cases s.entry e <;> simp

theorem readField_manager (i : Fin 4) (s : State) :
    readField (.manager i) s =
      (if s.managers[i].valid then 2 ^ 31 else 0) + (if s.managers[i].port = .u then 0 else 2 ^ 24) + s.managers[i].node.toNat := by
  simp only [readField, ManagerEntry.code, bitCode]
  cases s.managers[i].port <;> rfl

/-- An entry that is not FREE reads its codes (Table 11-9). -/
theorem readField_entry {e : Fin 64} {x : Entry} {s : State} (h : s.entry e = some x) :
    readField (.entryState e) s = (match x.state with
      | .pending => 1
      | .issued => 2
      | .done => 3
      | .quarantined => 4) ∧
    readField (.entryDirection e) s = (if x.dir = .down then 0 else 1) ∧
    readField (.entryKind e) s = (match x.kind with
      | .read => 1
      | .confirmed => 2
      | .absorbed => 3) ∧
    readField (.entryNode e) s = x.node.toNat ∧
    readField (.entryWindow e) s = (if x.dir = .down then 0 else 2 ^ 4) + x.window.val := by
  refine ⟨?_, ?_, ?_, ?_, ?_⟩
  · cases hs : x.state <;> simp only [readField, entryView, h, hs, EntryState.code]
  · cases hd : x.dir <;> simp [readField, entryView, h, hd, dirCode]
  · cases hk : x.kind <;> simp only [readField, entryView, h, hk, EntryKind.code]
  · simp only [readField, entryView, h]
  · cases hd : x.dir <;> simp [readField, entryView, h, hd, windowCode, dirCode]

/-- A FREE entry reads 0 (R100). -/
theorem readField_free {e : Fin 64} {s : State} (h : s.entry e = none) :
    readField (.entryState e) s = 0 ∧ readField (.entryDirection e) s = 0 ∧ readField (.entryKind e) s = 0 ∧
      readField (.entryNode e) s = 0 ∧ readField (.entryWindow e) s = 0 := by
  simp [readField, entryView, h]

/-- A window's state and attributes (Tables 11-9, 11-11). -/
theorem readField_windowState (t : Dir) (w : Fin 16) (s : State) :
    readField (.windowState t w) s = (match (s.window t w).state with
      | .disabled => 0
      | .active => 1
      | .faulted => 2
      | .draining => 3) := by
  cases h : (s.window t w).state <;> simp only [readField, h, WindowState.code]

theorem Window.attributesCode_eq (w : Window) :
    w.attributesCode =
      (if w.space = .memory then 0 else 1) + (if w.readAllowed then 2 ^ 4 else 0) +
      (if w.writeAllowed then 2 ^ 5 else 0) + (if w.posting = .absorb then 0 else 2 ^ 8) +
      (match w.granule with
        | .whole => 0
        | .g128 => 2 ^ 12
        | .g256 => 2 * 2 ^ 12) +
      (match w.lockBinding with
        | none => 0
        | some k => 2 ^ 16 + k.toNat * 2 ^ 20) := by
  unfold Window.attributesCode
  cases w.space <;> cases w.posting <;> rfl

/-- A window's fault record and its address, packed or absent (R183, Table 11-11). -/
theorem readField_fault (t : Dir) (w : Fin 16) (s : State) :
    ((s.window t w).fault = none → readField (.faultRecord t w) s = 0 ∧ readField (.faultAddress t w) s = 0) ∧
    ∀ f, (s.window t w).fault = some f →
      readField (.faultRecord t w) s = 2 ^ 31 + f.node.toNat * 2 ^ 16 + f.status.code.toNat * 2 ^ 8 + f.later ∧
      readField (.faultAddress t w) s = f.address.toNat := by
  refine ⟨fun h => ?_, fun f h => ?_⟩ <;> simp [readField, faultCode, h]

/-- The lock holder field, packed or absent (R138, Table 11-11). -/
theorem readField_lockHolder (k : Fin 8) (s : State) :
    ((s.lock k).holder = none → readField (.lockHolder k) s = 0) ∧
    ∀ n p, (s.lock k).holder = some (n, p) → readField (.lockHolder k) s =
      2 ^ 31 + (if (s.lock k).outbox = none then 0 else 2 ^ 30) + (if p = .u then 0 else 2 ^ 16) + n.toNat := by
  refine ⟨fun h => ?_, fun n p h => ?_⟩
  · simp [readField, holderCode, h]
  · cases ho : (s.lock k).outbox <;> cases p <;> simp [readField, holderCode, h, ho, bitCode, portIndex]

/-- Settles O26: a read is the agent's judgement behind the take of the head, and the fields read as Tables 11-9 and 11-11 give them. -/
theorem managementReadReturnsField : Obligations.ManagementReadReturnsField := by
  refine ⟨fun q f rest s h hl hc hi => ?fields, fun q a n rest s h hl hc hi h1 h256 => ?refusals, fun s => ?values⟩
  case fields =>
    have hwidth := f.toNat_width
    refine ⟨fun ho => ?_, fun ho hm => ?_⟩
    · exact exec_read_of_judged h hl hc hi f.width_bounds
        (judged_read (selectField_address f) (by rwa [headTaken_manager]) hwidth)
    · rw [exec_read_of_judged h hl hc hi f.width_bounds
        (judged_denied (selectField_address f) ho (by rwa [headTaken_manager]))]
      exact congrArg _ (raise_answered _ q .denied [] _)
  case refusals =>
    have hjudged : ∀ {st es}, Judged q (requestFor q .rd a n [] s) (headTaken q.port true s) st [] es →
        exec (.admissionJudgement q.port) s = .next (raiseAll es (answered q st [] (headTaken q.port true s))) :=
      fun hj => exec_read_of_judged h hl hc hi ⟨h1, h256⟩ hj
    refine ⟨fun hsl hf => hjudged (judged_badObject hsl hf), fun f whole hf => ⟨fun ho hm => ?_, fun ho hw => ?_⟩,
      fun k ha hn => ?_, fun k ha => ?_⟩
    · rw [hjudged (judged_denied hf ho (by rwa [headTaken_manager]))]
      exact congrArg _ (raise_answered _ q .denied [] _)
    · exact hjudged (judged_badLength hf (by rwa [headTaken_manager]) hw)
    · subst ha
      exact hjudged (judged_lockRequest (if_neg hn))
    · subst ha
      exact hjudged (judged_lockRequest rfl)
  case values =>
    refine ⟨rfl, rfl, rfl, rfl, rfl,
      fun p => ⟨rfl, rfl, (readField_port p s).1, rfl, (readField_port p s).2, rfl, rfl, rfl, rfl⟩,
      fun x => ⟨rfl, readField_tcto x s, readField_inUse x s⟩, fun i => readField_manager i s, rfl, readField_noticePort s, rfl, rfl,
      rfl, rfl, rfl, fun n => readField_noticeClass n s, fun e x hx => readField_entry hx,
      fun t w => ⟨rfl, readField_windowState t w s, (s.window t w).attributesCode_eq, rfl, rfl, rfl, rfl, rfl, rfl,
        readField_fault t w s⟩,
      fun e he => readField_free he, fun k => ⟨rfl, rfl, rfl, rfl, rfl, readField_lockHolder k s⟩⟩

end Sys2Proof.Machine
end

section
/-! Admission (03): the nine checks in their order, refusals, and the take of a forwarded request. -/

namespace Sys2Proof.Machine

open Sys2Proof.Safety

/-! ## Check 1 (R52) -/

theorem Space.ofCode_eq_some_iff (a : Byte) (sp : Space) : Space.ofCode a = some sp ↔ sp.code = a := by
  unfold Space.ofCode
  split
  · next h => subst h; cases sp <;> decide
  · split
    · next h => subst h; cases sp <;> decide
    · next h0 h1 =>
      refine ⟨fun h => (by cases h), fun h => ?_⟩
      cases sp
      · exact absurd h.symm h0
      · exact absurd h.symm h1

/-- Bus spaces 0 and 1 are a window's, 2 is CONTROL's, and no other is defined (Table 11-2). -/
theorem Space.ofCode_eq_none_iff (a : Byte) : Space.ofCode a = none ↔ a.toNat ≠ 0 ∧ a.toNat ≠ 1 := by
  have h0 : a.toNat = 0 ↔ a = 0 := by rw [← BitVec.toNat_inj]; rfl
  have h1 : a.toNat = 1 ↔ a = 1 := by rw [← BitVec.toNat_inj]; rfl
  rw [Ne, Ne, h0, h1]
  unfold Space.ofCode
  split
  · next h => simp [h]
  · split
    · next h => simp [h]
    · next h h' => simpa using ⟨h, h'⟩

theorem eq_controlSpace_iff (a : Byte) : a = controlSpace ↔ a.toNat = 2 := by
  rw [← BitVec.toNat_inj]
  rfl

/-- Check 1 of the model is that of the statements (R52). -/
theorem malformed_eq_false_iff (identity : Node) (r : Request) : malformed identity r = false ↔ WellFormedRequest identity r := by
  have hspace : (decide (Space.ofCode r.space = none) && decide (r.space ≠ controlSpace)) = false ↔
      r.space.toNat = 0 ∨ r.space.toNat = 1 ∨ r.space.toNat = 2 := by
    rw [← Bool.not_eq_true]
    simp only [Bool.and_eq_true, decide_eq_true_eq, Space.ofCode_eq_none_iff, ne_eq, eq_controlSpace_iff]
    tauto
  have hpost : (decide (r.kind = .pw) && decide (r.space = controlSpace) && decide (r.dst ≠ identity)) = false ↔
      ¬ (r.kind = .pw ∧ r.space.toNat = 2 ∧ r.dst ≠ identity) := by
    rw [← Bool.not_eq_true]
    simp only [Bool.and_eq_true, decide_eq_true_eq, eq_controlSpace_iff, and_assoc]
  have hlow : ¬ r.length.toNat = 0 ↔ 1 ≤ r.length.toNat := Nat.one_le_iff_ne_zero.symm
  unfold malformed WellFormedRequest
  rw [Bool.or_eq_false_iff, Bool.or_eq_false_iff, Bool.or_eq_false_iff, Bool.or_eq_false_iff, hspace, hpost,
    decide_eq_false_iff_not, decide_eq_false_iff_not, hlow, Nat.not_lt]
  cases r.kind <;> simp [and_assoc]

theorem malformed_iff (identity : Node) (r : Request) : malformed identity r = true ↔ ¬ WellFormedRequest identity r := by
  rw [← malformed_eq_false_iff, Bool.not_eq_false]

/-! ## Check 4: the matching window (R26, R33) -/

theorem hits?_iff {w : Window} {r : Request} {sp : Space} (h : sp.code = r.space) :
    w.hits? sp r.address = true ↔ Hits w r := by
  have hinj : ∀ a b : Space, a.code = b.code ↔ a = b := by
    intro a b
    cases a <;> cases b <;> decide
  simp only [Window.hits?, Window.inForce, Bool.and_eq_true, decide_eq_true_eq, Hits, ← h, hinj, and_assoc]

/-- A window that matches is the one looked up: two do not overlap (R33). -/
theorem lookup_of_hits {s : State} {t : Dir} {w : Fin 16} {r : Request} {sp : Space} (ho : OverlapLaw s) (hsp : sp.code = r.space)
    (h : Hits (s.window t w) r) : s.lookup t sp r.address = some w := by
  cases hl : s.lookup t sp r.address with
  | none =>
    have hnone := List.find?_eq_none.1 hl w (List.mem_finRange w)
    exact absurd ((hits?_iff hsp).2 h) hnone
  | some v =>
    have hv : Hits (s.window t v) r := (hits?_iff hsp).1 (List.find?_some (p := fun w => (s.window t w).hits? sp r.address) hl)
    obtain ⟨hforce, hspace, hlow, hhigh⟩ := h
    obtain ⟨hforce', hspace', hlow', hhigh'⟩ := hv
    have hsame : (s.window t v).space = (s.window t w).space := by
      have hcode : (s.window t v).space.code = (s.window t w).space.code := hspace'.trans hspace.symm
      cases hsv : (s.window t v).space <;> cases hsw : (s.window t w).space <;> rw [hsv, hsw] at hcode <;> first | rfl | cases hcode
    by_contra hne
    have hvw : v ≠ w := fun heq => hne (congrArg some heq)
    have hmeet := ho t v w hvw ((Window.inForce_iff _).2 hforce') ((Window.inForce_iff _).2 hforce) hsame
    rw [← Bool.not_eq_true, Window.meets_iff] at hmeet
    omega

theorem lookup_of_miss {s : State} {t : Dir} {r : Request} {sp : Space} (hsp : sp.code = r.space)
    (h : ∀ w, ¬ Hits (s.window t w) r) : s.lookup t sp r.address = none :=
  List.find?_eq_none.2 fun w _ hw => h w ((hits?_iff hsp).1 hw)

/-! ## Checks 5 to 9 (R27, R55 to R57) -/

theorem bindingPasses_iff (p : Port) (s : State) (w : Window) (r : Request) :
    bindingPasses s w r.src p = true ↔ Binds p s w r := by
  unfold bindingPasses Binds
  cases w.lockBinding with
  | none => simp
  | some k =>
    by_cases hk : k.toNat < 8
    · simp [hk]
    · simp [hk]

theorem allows_iff (w : Window) (r : Request) :
    Allows w r ↔ ¬ (r.kind = .rd ∧ w.readAllowed = false) ∧ ¬ (r.kind ≠ .rd ∧ w.writeAllowed = false) := by
  simp only [Allows, not_and, Bool.not_eq_false]

section

variable {p : Port} {r : Request} {w : Window} {s : State}

theorem windowRefusal_boundary (h : w.limit.toNat < r.address.toNat + r.length.toNat - 1) :
    windowRefusal p r w s = some .boundary := if_pos h

/-- Past check 5, the state of the window decides (R27). -/
theorem windowRefusal_of_inside (h : r.address.toNat + r.length.toNat - 1 ≤ w.limit.toNat) :
    (w.state = .draining → windowRefusal p r w s = some .windowClosed) ∧
    (w.state = .faulted → windowRefusal p r w s = some .windowFault) := by
  have hin : ¬ w.limit.toNat < r.address.toNat + r.length.toNat - 1 := by omega
  refine ⟨fun hs => ?_, fun hs => ?_⟩ <;> simp [windowRefusal, hin, hs]

/-- At an ACTIVE window, past check 6: access, the lock binding, and the forward port's link (R55 to R57). -/
theorem windowRefusal_of_active (h : r.address.toNat + r.length.toNat - 1 ≤ w.limit.toNat) (hs : w.state = .active) :
    (¬ Allows w r → windowRefusal p r w s = some .access) ∧
    (Allows w r →
      (¬ Binds p s w r → windowRefusal p r w s = some .locked) ∧
      (Binds p s w r →
        ((s.port (forwardPort (dirOf p))).link = .down → windowRefusal p r w s = some .portDown) ∧
        ((s.port (forwardPort (dirOf p))).link = .stalled → windowRefusal p r w s = some .portStalled) ∧
        ((s.port (forwardPort (dirOf p))).link = .up → windowRefusal p r w s = none))) := by
  have hin : ¬ w.limit.toNat < r.address.toNat + r.length.toNat - 1 := by omega
  rw [← bindingPasses_iff, allows_iff]
  unfold windowRefusal
  rw [if_neg hin, if_neg (by simp [hs]), if_neg (by simp [hs])]
  refine ⟨fun hno => ?_, fun ⟨hr, hw⟩ => ?_⟩
  · by_cases hr : r.kind = .rd ∧ w.readAllowed = false
    · rw [if_pos hr]
    · rw [if_neg hr, if_pos (by tauto)]
  · rw [if_neg hr, if_neg hw]
    refine ⟨fun hb => if_pos (by simpa using hb), fun hb => ?_⟩
    rw [if_neg (by simp [hb])]
    refine ⟨fun hl => ?_, fun hl => ?_, fun hl => ?_⟩ <;> rw [hl]

end

/-! ## The judgement (R51) -/

section

variable {p : Port} {r : Request} {s : State}

theorem disposal_badRequest (h : ¬ WellFormedRequest (s.port p).identity r) : disposal p r s = .refuse .badRequest none :=
  if_pos ((malformed_iff _ r).2 h)

theorem not_malformed (h : WellFormedRequest (s.port p).identity r) : ¬ malformed (s.port p).identity r = true :=
  fun hm => (malformed_iff _ r).1 hm h

theorem disposal_misrouted (h : WellFormedRequest (s.port p).identity r) (hd : r.dst ≠ (s.port p).identity) :
    disposal p r s = .refuse .misrouted none := by
  rw [disposal, if_neg (not_malformed h), if_pos hd]

theorem disposal_control_posted (h : WellFormedRequest (s.port p).identity r) (hd : r.dst = (s.port p).identity)
    (hs : r.space.toNat = 2) (hk : r.kind = .pw) : disposal p r s = .refuse .badRequest none := by
  have hspace : Space.ofCode r.space = none := (Space.ofCode_eq_none_iff _).2 (by omega)
  rw [disposal, if_neg (not_malformed h), if_neg (not_not_intro hd), hspace]
  exact if_pos hk

/-- The bus space of a well-formed request that is not CONTROL's is a window's (R194). -/
theorem exists_space (h : WellFormedRequest (s.port p).identity r) (hs : r.space.toNat ≠ 2) : ∃ sp : Space, sp.code = r.space := by
  obtain ⟨-, -, -, -, hspace, -⟩ := h
  cases hc : Space.ofCode r.space with
  | some sp => exact ⟨sp, (Space.ofCode_eq_some_iff _ _).1 hc⟩
  | none =>
    have hnone := (Space.ofCode_eq_none_iff _).1 hc
    omega

theorem disposal_unmapped (h : WellFormedRequest (s.port p).identity r) (hd : r.dst = (s.port p).identity)
    (hs : r.space.toNat ≠ 2) (hmiss : ∀ w, ¬ Hits (s.window (dirOf p) w) r) : disposal p r s = .refuse .unmapped none := by
  obtain ⟨sp, hsp⟩ := exists_space h hs
  rw [disposal, if_neg (not_malformed h), if_neg (not_not_intro hd), (Space.ofCode_eq_some_iff _ _).2 hsp]
  dsimp only
  rw [lookup_of_miss hsp hmiss]

/-- With a matching window, checks 5 to 9 decide (R51). -/
theorem disposal_of_hits {w : Fin 16} (ho : OverlapLaw s) (h : WellFormedRequest (s.port p).identity r)
    (hd : r.dst = (s.port p).identity) (hit : Hits (s.window (dirOf p) w) r) :
    (∀ st, windowRefusal p r (s.window (dirOf p) w) s = some st → disposal p r s = .refuse st (some w)) ∧
    (windowRefusal p r (s.window (dirOf p) w) s = none → disposal p r s = .forward w) := by
  have hsp : (s.window (dirOf p) w).space.code = r.space := hit.2.1
  refine ⟨fun st hst => ?_, fun hnone => ?_⟩ <;>
    rw [disposal, if_neg (not_malformed h), if_neg (not_not_intro hd), (Space.ofCode_eq_some_iff _ _).2 hsp] <;> dsimp only <;>
    rw [lookup_of_hits ho hsp hit] <;> dsimp only
  · rw [hst]
  · rw [hnone]

end

/-! ## The head judged on a quiet part (R49, R58, R59) -/

section

variable {p : Port} {r : Request} {rest : List Request} {s : State}

theorem disposal_headWaiting (q : Port) : disposal p r (headWaiting q s) = disposal p r s := by
  cases q <;> cases p <;> rfl

theorem atHand_headWaiting (q : Port) (d : Disposal) : atHand p r d (headWaiting q s) = atHand p r d s := by
  cases q <;> cases p <;> rfl

theorem quiet_heads (h : Quiet s) (q : Port) : (s.port q).headWaits = false := by
  cases q
  · exact h.2.1
  · exact h.2.2

/-- A head whose resources are not at hand waits, and nothing else happens (R49). -/
theorem exec_admissionJudgement_wait (h : Quiet s) (hi : (s.port p).ingress = r :: rest)
    (ha : atHand p r (disposal p r s) s = false) : exec (.admissionJudgement p) s = .next (headWaiting p s) := by
  refine congrArg Host.Outcome.next ?_
  rw [judgeHead_of_wait p s r rest hi ha]
  refine settle_of_atRest _ ⟨fun q => ?_, fun q => ?_⟩
  · rw [nextClaim_congr q s _ (by cases q <;> cases p <;> rfl) (by cases q <;> cases p <;> rfl) (by simp [headWaiting])
      (by simp [headWaiting]) (by simp [headWaiting])]
    exact h.1 q
  · by_cases hq : q = p
    · subst hq
      have hingress : ((headWaiting q s).port q).ingress = r :: rest := by simpa [headWaiting] using hi
      have htake : takeable q (headWaiting q s) = false := by
        rw [takeable, hingress]
        dsimp only
        rw [disposal_headWaiting, atHand_headWaiting, ha]
      rw [waitingTake, htake, Bool.and_false]
    · refine waitingTake_of_not_waiting q _ ?_
      rw [headWaiting, State.port_setPort_ne _ _ _ _ hq]
      exact quiet_heads h q

/-- A head whose resources are at hand is taken, and the event settles (R50). -/
theorem exec_admissionJudgement_take {t : State} {es : List Raise} (hi : (s.port p).ingress = r :: rest)
    (ha : atHand p r (disposal p r s) s = true) (hc : carryOut p r (disposal p r s) s = (t, es)) (ht : Quiet t) :
    exec (.admissionJudgement p) s = .next (raiseAll es t) := by
  refine congrArg Host.Outcome.next ?_
  rw [judgeHead_of_take p s r rest hi ha, hc]
  exact settleWith_of_quiet es t ht

/-- A refused head: a posted write is taken with its raise, a read or confirmed write with its answer, where a slot is free (R58, R59). -/
theorem refusedWith_of_disposal {st : Status} {w : Option (Fin 16)} (h : Quiet s) (hl : (s.port p).link ≠ .down)
    (hi : (s.port p).ingress = r :: rest) (hd : disposal p r s = .refuse st w) : RefusedWith p r st w s := by
  have htaken : take p false s = headTaken p false s := take_eq_headTaken p false s
  refine ⟨fun hk => ?_, fun hk hc => ?_, fun hk hc => ?_⟩
  · refine exec_admissionJudgement_take (es := [refusedRaise p r st w]) hi (by simp [hd, atHand, hk]) ?_ (quiet_headTaken h)
    rw [hd, carryOut, refuse, hk, htaken]
  · refine exec_admissionJudgement_take (es := []) hi (by simp [hd, atHand, slotForHead_of_quiet h hl hc]) ?_
      (quiet_answered (q := { port := p, node := r.src, tag := r.tag }) (quiet_headTaken h))
    rw [hd, carryOut, refuse, htaken]
    cases hkind : r.kind with
    | pw => exact absurd hkind hk
    | rd => rfl
    | cw => rfl
  · refine exec_admissionJudgement_wait h hi ?_
    have hfull : slotFree p s = false := by simp [slotFree, hc]
    simp [hd, atHand, hk, slotForHead, hfull]

end

/-- Settles O21: each check's failure is the judgement's disposal, and a disposal that refuses is carried out by the kind of the request. -/
theorem admissionRefusalsInOrder : Obligations.AdmissionRefusalsInOrder := by
  intro p r rest s h ho hl hi
  have hrefuse : ∀ {st w}, disposal p r s = .refuse st w → RefusedWith p r st w s := fun hd => refusedWith_of_disposal h hl hi hd
  refine ⟨fun hbad => hrefuse (disposal_badRequest hbad), fun hwell => ⟨fun hd => hrefuse (disposal_misrouted hwell hd), fun hd =>
    ⟨fun hs hk => hrefuse (disposal_control_posted hwell hd hs hk), fun hs hmiss => hrefuse (disposal_unmapped hwell hd hs hmiss),
      fun w hit => ?_⟩⟩⟩
  have hwindow : ∀ {st}, windowRefusal p r (s.window (dirOf p) w) s = some st → RefusedWith p r st (some w) s := fun hst =>
    hrefuse ((disposal_of_hits ho hwell hd hit).1 _ hst)
  refine ⟨fun hb => hwindow (windowRefusal_boundary hb), fun hin => ?_⟩
  obtain ⟨hdraining, hfaulted⟩ := windowRefusal_of_inside (p := p) (s := s) hin
  refine ⟨fun hs => hwindow (hdraining hs), fun hs => hwindow (hfaulted hs), fun hs => ?_⟩
  obtain ⟨haccess, hallowed⟩ := windowRefusal_of_active (p := p) (s := s) hin hs
  refine ⟨fun hno => hwindow (haccess hno), fun hok => ?_⟩
  obtain ⟨hlocked, hbound⟩ := hallowed hok
  refine ⟨fun hno => hwindow (hlocked hno), fun hb => ?_⟩
  obtain ⟨hdown, hstalled, -⟩ := hbound hb
  exact ⟨fun hlink => hwindow (hdown hlink), fun hlink => hwindow (hstalled hlink)⟩

/-- Settles O22: presented at an open port, a row's request is the head, stands behind another, or overruns. -/
theorem requestRowsWaitTheirTurn : Obligations.RequestRowsWaitTheirTurn := by
  intro c p r s hreq
  rw [exec_requestOf c p r s hreq]
  refine ⟨fun hl => by rw [presentRequest, if_pos hl], fun hl => ⟨fun hempty => ?_, fun g rest hi => ⟨fun heq => ?_, fun hne hroom => ?_,
    fun hne hfull => ?_⟩⟩⟩
  · rw [presentRequest_of_empty p r s hl hempty]
    rfl
  · rw [presentRequest, if_neg hl, hi]
    dsimp only
    rw [if_pos heq]
    rfl
  · rw [presentRequest, if_neg hl, hi]
    dsimp only
    rw [if_neg hne, storeRequest, if_pos hroom, hi]
  · rw [presentRequest, if_neg hl, hi]
    dsimp only
    rw [if_neg hne, storeRequest, if_neg (by omega)]
    rfl

/-! ## Forwards (R60 to R66) -/

/-- A head that passes the nine checks is forwarded through its window (R51). -/
theorem disposal_of_passes {p : Port} {r : Request} {w : Fin 16} {s : State} (ho : OverlapLaw s) (h : PassesChecks p r w s) :
    disposal p r s = .forward w := by
  obtain ⟨hwell, hd, hit, hin, hs, hok, hb, hup⟩ := h
  obtain ⟨-, hallowed⟩ := windowRefusal_of_active (p := p) (s := s) hin hs
  obtain ⟨-, hbound⟩ := hallowed hok
  exact (disposal_of_hits ho hwell hd hit).2 ((hbound hb).2.2 hup)

/-- Packets at the tail of a port that is UP, in the words of the statements (R120, R126). -/
theorem PortState.enqueue_eq_queued {x : PortState} {ks : List EgressPacket} (hu : x.link = .up) (hk : ks ≠ []) :
    x.enqueue ks = queued x ks := by
  rw [PortState.enqueue_eq, PortState.enqueue_stallTimer x ks hu hk, queued]

theorem segmentsOf_ne_nil (w : Window) (r : Request) : segmentsOf w r ≠ [] := cutSegments_ne_nil _ _ _

theorem dirOf_forwardPort_ne (p : Port) : forwardPort (dirOf p) ≠ p := by cases p <;> decide

/-- The forward port's queue after a take at the other port. -/
theorem port_headTaken_forward (p : Port) (counted : Bool) (s : State) :
    (headTaken p counted s).port (forwardPort (dirOf p)) = s.port (forwardPort (dirOf p)) := by
  rw [headTaken, State.port_setPort_ne _ _ _ _ (dirOf_forwardPort_ne p)]

theorem State.firstFree_eq_some {s : State} {e : Fin 64} (he : s.entry e = none) (hi : ∀ i, i < e → s.entry i ≠ none) :
    s.firstFree = some e := by
  refine List.find?_eq_some_iff_getElem.2 ⟨by simp [he], e.val, by simp [allEntries], by simp [allEntries], fun j hj => ?_⟩
  have hne := hi ⟨j, by omega⟩ hj
  simpa [allEntries] using Option.ne_none_iff_isSome.1 hne

/-- Packets queued at the forward port, which is UP and which the take has not changed. -/
theorem enqueue_of_passes {p : Port} {r : Request} {w : Fin 16} {s t : State} {ks : List EgressPacket} (h : PassesChecks p r w s)
    (hk : ks ≠ []) (ht : t.port (forwardPort (dirOf p)) = s.port (forwardPort (dirOf p))) :
    enqueue (forwardPort (dirOf p)) ks t =
      t.setPort (forwardPort (dirOf p)) (queued (s.port (forwardPort (dirOf p))) ks) := by
  obtain ⟨-, -, -, -, -, -, -, hup⟩ := h
  rw [enqueue, ht, PortState.enqueue_eq_queued hup hk]

/-- The resources of a forward: room for its segments, and an entry for those that are not posted on (R60, R62, R63, R66). -/
theorem atHand_forward_iff (p : Port) (r : Request) (w : Fin 16) (s : State) :
    atHand p r (.forward w) s = true ↔
      (s.port (forwardPort (dirOf p))).egress.length + (cutsOf (s.window (dirOf p) w) r).length ≤ 16 ∧
      (passes (s.window (dirOf p) w) r = true ∨
        s.inUse (dirOf p) + 1 + max (s.reserve (otherDir (dirOf p))) (s.inUse (otherDir (dirOf p))) ≤ 64 ∧
          s.firstFree.isSome = true) := by
  simp only [atHand, State.withinReservation, Bool.and_eq_true, Bool.or_eq_true, decide_eq_true_eq]
  rfl

theorem entryPackets_ne_nil (e : Fin 64) (w : Window) (r : Request) : entryPackets e w r ≠ [] := by
  have h := segmentsOf_ne_nil w r
  rw [entryPackets, Ne, List.mapIdx_eq_nil_iff]
  exact h

theorem passPackets_ne_nil (t : Dir) (n : Fin 16) (w : Window) (r : Request) : passPackets t n w r ≠ [] := by
  simpa [passPackets] using segmentsOf_ne_nil w r

/-- A forward with an entry is the state of the statements (R64, R65, R73, R77). -/
theorem forward_eq_forwarded {p : Port} {r : Request} {w : Fin 16} {e : Fin 64} {s : State} (h : PassesChecks p r w s)
    (hn : passes (s.window (dirOf p) w) r = false) (he : (take p true s).firstFree = some e) :
    forward p r w (take p true s) = forwarded p r w e s := by
  have hport : ∀ x y, (((take p true s).setWindow (dirOf p) w x).setEntry e y).port (forwardPort (dirOf p)) =
      s.port (forwardPort (dirOf p)) := fun x y => by
    rw [take_eq_headTaken, State.port_setEntry, State.port_setWindow, port_headTaken_forward]
  rw [forward, take_window, if_neg (by simp [hn]), he]
  dsimp only
  rw [enqueue_of_passes h (entryPackets_ne_nil e _ r) (hport _ _), take_eq_headTaken, forwarded]
  cases hk : r.kind <;> simp only [newEntry, entryKindOf, entryPackets, segmentPacket, bridgeTag, hk] <;> rfl

/-- The state after a forward is quiet: a PENDING entry claims no slot. -/
theorem quiet_forwarded {p : Port} {r : Request} {w : Fin 16} {e : Fin 64} {s : State} (h : Quiet s) : Quiet (forwarded p r w e s) := by
  have hport : ∀ x y, (((headTaken p true s).setWindow (dirOf p) w x).setEntry e y).port (forwardPort (dirOf p)) =
      s.port (forwardPort (dirOf p)) := fun x y => by
    rw [State.port_setEntry, State.port_setWindow, port_headTaken_forward]
  unfold forwarded
  refine quiet_setPort (quiet_setEntry (quiet_setWindow (quiet_headTaken h) _ _ _) (by simp)) ?_ ?_ ?_ <;> rw [hport]
  · exact Iff.rfl
  · rfl
  · rfl

/-- Settles O23: with room and an entry the head is forwarded, else it waits. -/
theorem forwardedRequestClaimsEntry : Obligations.ForwardedRequestClaimsEntry := by
  intro p r rest w s h ho hi hp hposting
  have hd := disposal_of_passes ho hp
  have hn : passes (s.window (dirOf p) w) r = false := by
    by_cases hk : r.kind = .pw
    · simp [passes, hposting hk]
    · simp [passes, hk]
  refine ⟨fun e hres hroom he hlow => ?_, fun hlack => ?_⟩
  · have hfree := State.firstFree_eq_some he hlow
    have htaken : (take p true s).firstFree = some e := by
      rw [← hfree]
      simp [State.firstFree]
    refine exec_admissionJudgement_take (t := forwarded p r w e s) (es := []) hi ?_ ?_ (quiet_forwarded h)
    · rw [hd, atHand_forward_iff]
      exact ⟨hroom, .inr ⟨hres, by rw [hfree]; rfl⟩⟩
    · rw [hd, carryOut, forward_eq_forwarded hp hn htaken]
  · refine exec_admissionJudgement_wait h hi ?_
    rw [hd, ← Bool.not_eq_true, atHand_forward_iff, hn]
    rintro ⟨hroom, hfalse | ⟨hres, -⟩⟩
    · cases hfalse
    · omega

/-- Settles O24: with room the segments of a posted write are queued on their own, else the head waits. -/
theorem passWriteForwarded : Obligations.PassWriteForwarded := by
  intro p r rest w s h ho hi hp hk hpass
  have hd := disposal_of_passes ho hp
  have hy : passes (s.window (dirOf p) w) r = true := by simp [passes, hk, hpass]
  refine ⟨fun hroom => ?_, fun hlack => ?_⟩
  · have hport : ∀ x, ((headTaken p true s).setWindow (dirOf p) w x).port (forwardPort (dirOf p)) =
        s.port (forwardPort (dirOf p)) := fun x => by rw [State.port_setWindow, port_headTaken_forward]
    refine exec_admissionJudgement_take (es := []) hi ?_ ?_ (quiet_setPort (quiet_setWindow (quiet_headTaken h) _ _ _) ?_ ?_ ?_)
    · rw [hd, atHand_forward_iff]
      exact ⟨hroom, .inl hy⟩
    · rw [hd, carryOut, forward]
      dsimp only
      rw [take_window, if_pos hy, take_eq_headTaken, enqueue_of_passes hp (passPackets_ne_nil _ _ _ r) (hport _)]
      rfl
    · rw [hport]; exact Iff.rfl
    · rw [hport]; rfl
    · rw [hport]; rfl
  · refine exec_admissionJudgement_wait h hi ?_
    rw [hd, ← Bool.not_eq_true, atHand_forward_iff]
    rintro ⟨hroom, -⟩
    omega

end Sys2Proof.Machine
end

section
/-! The cut of a request into segments (03 3.4, 04 4.2). -/

namespace Sys2Proof.Machine

open Sys2Proof.Safety

section

variable {n a len : Nat}

/-- The granules that cut are 128 and 256 (R23). -/
theorem Granule.size_cases {g : Granule} (h : g.size = some n) : n = 128 ∨ n = 256 := by
  cases g <;> cases h <;> simp

theorem cutSegments_of_size {g : Granule} (h : g.size = some n) :
    cutSegments g a len = (List.range ((a + len - 1) / n - a / n + 1)).map (cutSegment n a len) := by
  simp only [cutSegments, h, segmentCount]

/-- A request of 1 to 256 bytes touches at most 3 aligned blocks of 128 bytes, and at most 2 of 256 (R61). -/
theorem blocks_touched (hn : n = 128 ∨ n = 256) (h1 : 1 ≤ len) (h256 : len ≤ 256) :
    a / n ≤ (a + len - 1) / n ∧ (a + len - 1) / n ≤ a / n + 2 ∧ (n = 256 → (a + len - 1) / n ≤ a / n + 1) := by
  rcases hn with rfl | rfl <;> omega

/-- Segment `k` lies in the `k`-th block that the request touches: from the block's start, or the request's, to the block's end, or the
request's (R76). -/
theorem cutSegment_ends (hn : n = 128 ∨ n = 256) (h1 : 1 ≤ len) {k : Nat} (hk : k < (a + len - 1) / n - a / n + 1) :
    a + (cutSegment n a len k).1 = (if k = 0 then a else (a / n + k) * n) ∧
    a + (cutSegment n a len k).1 + (cutSegment n a len k).2 =
      (if k + 1 < (a + len - 1) / n - a / n + 1 then (a / n + k + 1) * n else a + len) ∧
    1 ≤ (cutSegment n a len k).2 ∧ (cutSegment n a len k).2 ≤ n ∧
    (a + (cutSegment n a len k).1) / n = a / n + k ∧
    (a + (cutSegment n a len k).1 + (cutSegment n a len k).2 - 1) / n = a / n + k := by
  unfold cutSegment
  rcases hn with rfl | rfl <;> (dsimp only; split_ifs <;> omega)

theorem getElem?_cut {k : Nat} {m : Nat} {c : Nat × Nat} (h : ((List.range m).map (cutSegment n a len))[k]? = some c) :
    k < m ∧ c = cutSegment n a len k := by
  rw [List.getElem?_map, Option.map_eq_some_iff] at h
  obtain ⟨j, hj, rfl⟩ := h
  obtain ⟨hlt, hget⟩ := List.getElem?_eq_some_iff.1 hj
  rw [List.getElem_range] at hget
  subst hget
  exact ⟨by simpa using hlt, rfl⟩

/-- The segments' lengths add up: each segment ends where the next begins (R76). -/
theorem sum_cut (hn : n = 128 ∨ n = 256) (h1 : 1 ≤ len) {j : Nat} (hj : j < (a + len - 1) / n - a / n + 1) :
    a + (((List.range (j + 1)).map (cutSegment n a len)).map Prod.snd).sum =
      a + (cutSegment n a len j).1 + (cutSegment n a len j).2 := by
  induction j with
  | zero =>
    obtain ⟨hstart, -⟩ := cutSegment_ends hn h1 hj
    rw [if_pos rfl] at hstart
    simp
    omega
  | succ j ih =>
    have hprev := ih (by omega)
    obtain ⟨-, hend, -⟩ := cutSegment_ends hn h1 (show j < (a + len - 1) / n - a / n + 1 by omega)
    obtain ⟨hstart, -⟩ := cutSegment_ends hn h1 hj
    rw [if_pos hj] at hend
    rw [if_neg (by omega)] at hstart
    rw [List.range_succ, List.map_append, List.map_append, List.sum_append]
    have hsame : (a / n + (j + 1)) * n = (a / n + j + 1) * n := by rw [Nat.add_assoc]
    simp only [List.map_cons, List.map_nil, List.sum_cons, List.sum_nil]
    omega

end

/-- Settles O25: what the ends of the segments say of the whole cut. -/
theorem segmentCutCoversRequest : Obligations.SegmentCutCoversRequest := by
  intro g a len h1 h256
  cases hg : g.size with
  | none =>
    have hwhole : g = .whole := by cases g <;> first | rfl | cases hg
    subst hwhole
    have hcut : cutSegments .whole a len = [(0, len)] := rfl
    rw [hcut]
    refine ⟨by simp, by simp, by simp, rfl, by simpa using ⟨h1, h256⟩, fun i c d hc hd => ?_, fun _ => rfl, fun n hn => by cases hn⟩
    simp at hd
  | some n =>
    have hn := Granule.size_cases hg
    obtain ⟨hlow, hhigh, hhigh'⟩ := blocks_touched (a := a) hn h1 h256
    have hends := fun k hk => cutSegment_ends (n := n) (a := a) (len := len) (k := k) hn h1 hk
    have hlen : (cutSegments g a len).length = (a + len - 1) / n - a / n + 1 := by
      rw [cutSegments_of_size hg, List.length_map, List.length_range]
    have hmem : ∀ {k c}, (cutSegments g a len)[k]? = some c → k < (a + len - 1) / n - a / n + 1 ∧ c = cutSegment n a len k := by
      intro k c hc
      rw [cutSegments_of_size hg] at hc
      exact getElem?_cut hc
    have hfirst : (cutSegments g a len)[0]? = some (cutSegment n a len 0) := by
      rw [cutSegments_of_size hg, List.getElem?_map, List.getElem?_range (by omega)]
      rfl
    refine ⟨by omega, by omega, ?sum, ?first, fun c hc => ?bounds, fun i c d hc hd => ?next, fun hwhole => ?uncut, fun m hm => ?sized⟩
    case sum =>
      have hsum := sum_cut (n := n) (a := a) (len := len) hn h1 (j := (a + len - 1) / n - a / n) (by omega)
      obtain ⟨-, hend, -⟩ := hends ((a + len - 1) / n - a / n) (by omega)
      rw [if_neg (by omega)] at hend
      rw [cutSegments_of_size hg]
      omega
    case first =>
      obtain ⟨hstart, -⟩ := hends 0 (by omega)
      rw [if_pos rfl] at hstart
      rw [hfirst, Option.map_some]
      exact congrArg some (by omega)
    case bounds =>
      obtain ⟨k, hk⟩ := List.mem_iff_getElem?.1 hc
      obtain ⟨hlt, rfl⟩ := hmem hk
      obtain ⟨-, -, hpos, hle, -⟩ := hends k hlt
      exact ⟨hpos, by omega⟩
    case next =>
      obtain ⟨hi, rfl⟩ := hmem hc
      obtain ⟨hi', rfl⟩ := hmem hd
      obtain ⟨-, hend, -⟩ := hends i hi
      obtain ⟨hstart, -⟩ := hends (i + 1) hi'
      rw [if_pos hi'] at hend
      rw [if_neg (by omega)] at hstart
      have hsame : (a / n + (i + 1)) * n = (a / n + i + 1) * n := by rw [Nat.add_assoc]
      omega
    case uncut => rw [hwhole] at hg; cases hg
    case sized =>
      cases hm
      refine ⟨hlen, fun h => by rw [hlen]; have := hhigh' h; omega, fun i d hd => ?_, fun c hc => ?_⟩
      · obtain ⟨hi, rfl⟩ := hmem hd
        obtain ⟨hstart, -⟩ := hends (i + 1) hi
        rw [if_neg (by omega)] at hstart
        rw [hstart, Nat.mul_mod_left]
      · obtain ⟨k, hk⟩ := List.mem_iff_getElem?.1 hc
        obtain ⟨hlt, rfl⟩ := hmem hk
        obtain ⟨-, -, -, -, hblock, hblock'⟩ := hends k hlt
        rw [hblock, hblock']

end Sys2Proof.Machine
end

section
/-! The packets of the bridge read back (11 11.1), and the placement of notices (08 8.3). -/

namespace Sys2Proof.Machine

open Sys2Proof.Safety

/-! ## The bytes of a field (R194) -/

/-- A number of fewer bits than its bytes have is spelled back. -/
theorem numBE_bytesBE_of_lt {n v : Nat} (h : v < 256 ^ n) : numBE (bytesBE n v) = v := by
  rw [numBE_bytesBE, Nat.mod_eq_of_lt h]

theorem numBE_bytesBE_word {w n : Nat} (v : BitVec w) (h : 2 ^ w ≤ 256 ^ n) : numBE (bytesBE n v.toNat) = v.toNat :=
  numBE_bytesBE_of_lt (Nat.lt_of_lt_of_le v.isLt h)

/-- A node of 10 bits in its two bytes. -/
theorem node_bytesBE (m : Node) : BitVec.ofNat 10 (numBE (bytesBE 2 m.toNat)) = m := by
  rw [numBE_bytesBE_word m (by decide), BitVec.ofNat_toNat, BitVec.setWidth_eq]

theorem numBE_single (b : Byte) : numBE [b] = b.toNat := by simp [numBE]

theorem numBE_ofNat_of_lt {v : Nat} (h : v < 256) : numBE [BitVec.ofNat 8 v] = v := by
  rw [numBE_single, BitVec.toNat_ofNat, Nat.mod_eq_of_lt h]

/-! ## Requests, completions and credits -/

theorem requestBytes_length (kind sp : Byte) (dst src : Node) (tag : Tag) (a : Addr) (n : Nat) (data : List Byte) :
    16 ≤ (requestBytes kind sp dst src tag a n data).length := by
  simp only [requestBytes, List.length_append, List.length_cons, List.length_nil, bytesBE_length]
  omega

/-- The header and the payload of a request packet, field by field (Table 11-1). -/
theorem readRequest_requestBytes (k : ReqKind) (kind sp : Byte) (dst src : Node) (tag : Tag) (a : Addr) (len : BitVec 16)
    (data : List Byte) :
    readRequest k (requestBytes kind sp dst src tag a len.toNat data) =
      { kind := k, dst := dst, src := src, tag := tag, space := sp, address := a, length := len, data := data } := by
  have hdst : nodeAt (requestBytes kind sp dst src tag a len.toNat data) 2 = dst := node_bytesBE dst
  have hsrc : nodeAt (requestBytes kind sp dst src tag a len.toNat data) 4 = src := node_bytesBE src
  have haddr : fieldAt (requestBytes kind sp dst src tag a len.toNat data) 8 5 = a.toNat :=
    numBE_bytesBE_word (n := 5) a (by decide)
  have hlen : fieldAt (requestBytes kind sp dst src tag a len.toNat data) 14 2 = len.toNat :=
    numBE_bytesBE_word (n := 2) len (by decide)
  rw [readRequest, hdst, hsrc, haddr, hlen, BitVec.ofNat_toNat, BitVec.setWidth_eq, BitVec.ofNat_toNat, BitVec.setWidth_eq]
  rfl

/-- A packet with a request's kind code and header is a request (R194). -/
theorem readPacket_of_request {k : ReqKind} {rest : List Byte} (h : 16 ≤ (reqCode k :: rest).length) :
    readPacket (reqCode k :: rest) = .request (readRequest k (reqCode k :: rest)) := by
  cases k with
  | rd => rw [readPacket, if_pos ⟨rfl, h⟩]
  | cw => rw [readPacket, if_neg fun hk => absurd hk.1 (by decide), if_pos ⟨rfl, h⟩]
  | pw => rw [readPacket, if_neg fun hk => absurd hk.1 (by decide), if_neg fun hk => absurd hk.1 (by decide), if_pos ⟨rfl, h⟩]

/-- A request packet of a defined kind is read as that request (R194). -/
theorem readPacket_requestBytes (k : ReqKind) (sp : Byte) (dst src : Node) (tag : Tag) (a : Addr) (len : BitVec 16)
    (data : List Byte) :
    readPacket (requestBytes (reqCode k) sp dst src tag a len.toNat data) =
      .request { kind := k, dst := dst, src := src, tag := tag, space := sp, address := a, length := len, data := data } := by
  rw [← readRequest_requestBytes k (reqCode k)]
  exact readPacket_of_request (requestBytes_length (reqCode k) sp dst src tag a len.toNat data)

/-- A packet that is no request is read by what it is (R194). -/
theorem readPacket_of_not_request {k : Byte} {rest : List Byte} (h : k ≠ 1 ∧ k ≠ 2 ∧ k ≠ 3) :
    readPacket (k :: rest) =
      if k = 0x08 ∧ 12 ≤ (k :: rest).length then .completion (readCompletion (k :: rest))
      else if k = 0x0C ∧ 32 ≤ (k :: rest).length then .notice (nodeAt (k :: rest) 2)
      else if k = 0x0F ∧ 4 ≤ (k :: rest).length then .credit (byteAt (k :: rest) 1)
      else .undefinedKind := by
  obtain ⟨h1, h2, h3⟩ := h
  rw [readPacket, if_neg fun h => h1 h.1, if_neg fun h => h2 h.1, if_neg fun h => h3 h.1]

/-- The fields of a completion packet, with and without detail (Table 11-2). -/
theorem readCompletion_completionBytes (st : Byte) (dst src : Node) (tag : Tag) (detail : Option Byte) (data : List Byte) :
    readCompletion (completionBytes st dst src tag detail data) =
      { status := st, dst := dst, src := src, tag := tag, detail := detail, data := data } := by
  have hdst : nodeAt (completionBytes st dst src tag detail data) 2 = dst := node_bytesBE dst
  have hsrc : nodeAt (completionBytes st dst src tag detail data) 4 = src := node_bytesBE src
  have hdetail : (if (byteAt (completionBytes st dst src tag detail data) 7).getLsbD 0
      then some (byteAt (completionBytes st dst src tag detail data) 8) else none) = detail := by
    cases detail with
    | none => exact if_neg (show ¬ (0 : Byte).getLsbD 0 = true by decide)
    | some d => exact if_pos (show (1 : Byte).getLsbD 0 = true by decide)
  rw [readCompletion, hdst, hsrc, hdetail]
  rfl

theorem readPacket_completionBytes (st : Byte) (dst src : Node) (tag : Tag) (detail : Option Byte) (data : List Byte) :
    readPacket (completionBytes st dst src tag detail data) =
      .completion { status := st, dst := dst, src := src, tag := tag, detail := detail, data := data } := by
  rw [← readCompletion_completionBytes]
  have hlen : 12 ≤ (completionBytes st dst src tag detail data).length := by
    simp only [completionBytes, List.length_append, List.length_cons, List.length_nil, bytesBE_length]
    omega
  exact (readPacket_of_not_request (by decide)).trans (if_pos ⟨rfl, hlen⟩)

theorem readPacket_creditBytes (i : Byte) : readPacket (creditBytes i.toNat) = .credit i := by
  have hbyte : BitVec.ofNat 8 i.toNat = i := by rw [BitVec.ofNat_toNat, BitVec.setWidth_eq]
  refine (readPacket_of_not_request (by decide)).trans ?_
  rw [if_neg fun h => absurd h.1 (by decide), if_neg fun h => absurd h.1 (by decide), if_pos ⟨rfl, by simp⟩]
  exact congrArg Arrival.credit hbyte

/-! ## Notices (Table 11-3) -/

section

variable (src : Node) (n : StampedNotice)

/-- A notice's fields in the order of Table 11-3, first to last. -/
theorem noticeBytes_eq : noticeBytes src n =
    [0x0C, BitVec.ofNat 8 (noticeCode n.record.kind)] ++ (bytesBE 2 n.destination.toNat ++ (bytesBE 2 src.toNat ++
      (bytesBE 2 n.sequence.toNat ++ (bytesBE 2 n.dropped ++ ([BitVec.ofNat 8 n.record.cls.code, 0] ++
      (bytesBE 4 n.record.timestamp.toNat ++ (bytesBE 2 n.record.details.presence ++
      ([BitVec.ofNat 8 ((n.record.details.port.map portIndex).getD 0),
        BitVec.ofNat 8 ((n.record.details.window.map (fun x => windowCode x.1 x.2)).getD 0)] ++
      (bytesBE 5 ((n.record.details.address.map BitVec.toNat).getD 0) ++ ([0] ++
      (bytesBE 2 ((n.record.details.node.map BitVec.toNat).getD 0) ++
      [BitVec.ofNat 8 ((n.record.details.lock.map Fin.val).getD 0), n.record.details.status.getD 0,
        (n.record.details.cause.map Cause.code).getD 0, 0]))))))))))) := by
  simp only [noticeBytes, List.append_assoc]

theorem noticeBytes_length : (noticeBytes src n).length = 32 := by rw [noticeBytes_eq]; rfl

theorem readPacket_noticeBytes : readPacket (noticeBytes src n) = .notice n.destination := by
  refine (readPacket_of_not_request (by decide)).trans ?_
  rw [if_neg fun h => absurd h.1 (by decide), if_pos ⟨rfl, (noticeBytes_length src n).ge⟩]
  exact congrArg Arrival.notice (node_bytesBE n.destination)

theorem noticeCode_lt (k : NoticeKind) : noticeCode k < 256 := by cases k <;> decide

theorem NoticeClass.code_lt (k : NoticeClass) : k.code < 256 := by cases k <;> decide

theorem presenceBit_le (b : Bool) (i : Nat) : presenceBit b i ≤ 2 ^ i := by cases b <;> simp [presenceBit]

theorem Details.presence_lt (d : Details) : d.presence < 256 ^ 2 := by
  have h0 := presenceBit_le d.port.isSome 0
  have h1 := presenceBit_le d.window.isSome 1
  have h2 := presenceBit_le d.address.isSome 2
  have h3 := presenceBit_le d.node.isSome 3
  have h4 := presenceBit_le d.lock.isSome 4
  have h5 := presenceBit_le d.status.isSome 5
  have h6 := presenceBit_le d.cause.isSome 6
  unfold Details.presence
  omega

theorem windowCode_lt (t : Dir) (w : Fin 16) : windowCode t w < 256 := by
  cases t <;> simp only [windowCode, dirCode] <;> omega

/-- The record's own fields stand where Table 11-3 puts them. -/
theorem fieldAt_noticeBytes (hd : n.dropped ≤ 65535) :
    fieldAt (noticeBytes src n) 1 1 = noticeCode n.record.kind ∧ nodeAt (noticeBytes src n) 4 = src ∧
    fieldAt (noticeBytes src n) 6 2 = n.sequence.toNat ∧ fieldAt (noticeBytes src n) 8 2 = n.dropped ∧
    fieldAt (noticeBytes src n) 10 1 = n.record.cls.code ∧
    fieldAt (noticeBytes src n) 12 4 = n.record.timestamp.toNat ∧
    fieldAt (noticeBytes src n) 16 2 = n.record.details.presence := by
  rw [noticeBytes_eq]
  refine ⟨numBE_ofNat_of_lt (noticeCode_lt _), node_bytesBE src, ?_, ?_, numBE_ofNat_of_lt (NoticeClass.code_lt _), ?_, ?_⟩
  · exact numBE_bytesBE_word (n := 2) n.sequence (by decide)
  · exact numBE_bytesBE_of_lt (n := 2) (Nat.lt_succ_of_le hd)
  · exact numBE_bytesBE_word (n := 4) n.record.timestamp (by decide)
  · exact numBE_bytesBE_of_lt (n := 2) n.record.details.presence_lt

/-- A detail that is present stands where Table 11-3 puts it. -/
theorem detailAt_noticeBytes :
    (∀ p, n.record.details.port = some p → fieldAt (noticeBytes src n) 18 1 = portIndex p) ∧
    (∀ t w, n.record.details.window = some (t, w) → fieldAt (noticeBytes src n) 19 1 = dirCode t * 16 + w.val) ∧
    (∀ a, n.record.details.address = some a → fieldAt (noticeBytes src n) 20 5 = a.toNat) ∧
    (∀ m, n.record.details.node = some m → nodeAt (noticeBytes src n) 26 = m) ∧
    (∀ k, n.record.details.lock = some k → fieldAt (noticeBytes src n) 28 1 = k.val) ∧
    (∀ st, n.record.details.status = some st → byteAt (noticeBytes src n) 29 = st) ∧
    ∀ c, n.record.details.cause = some c → byteAt (noticeBytes src n) 30 = c.code := by
  refine ⟨fun p h => ?_, fun t w h => ?_, fun a h => ?_, fun m h => ?_, fun k h => ?_, fun st h => ?_, fun c h => ?_⟩
  · have hfield : fieldAt (noticeBytes src n) 18 1 = numBE [BitVec.ofNat 8 ((n.record.details.port.map portIndex).getD 0)] := by
      rw [noticeBytes_eq]; rfl
    rw [hfield, h]
    exact numBE_ofNat_of_lt (by cases p <;> decide)
  · have hfield : fieldAt (noticeBytes src n) 19 1 =
        numBE [BitVec.ofNat 8 ((n.record.details.window.map (fun x => windowCode x.1 x.2)).getD 0)] := by rw [noticeBytes_eq]; rfl
    rw [hfield, h]
    exact numBE_ofNat_of_lt (windowCode_lt t w)
  · have hfield : fieldAt (noticeBytes src n) 20 5 = numBE (bytesBE 5 ((n.record.details.address.map BitVec.toNat).getD 0)) := by
      rw [noticeBytes_eq]; rfl
    rw [hfield, h]
    exact numBE_bytesBE_word a (by decide)
  · have hfield : nodeAt (noticeBytes src n) 26 =
        BitVec.ofNat 10 (numBE (bytesBE 2 ((n.record.details.node.map BitVec.toNat).getD 0))) := by rw [noticeBytes_eq]; rfl
    rw [hfield, h]
    exact node_bytesBE m
  · have hfield : fieldAt (noticeBytes src n) 28 1 = numBE [BitVec.ofNat 8 ((n.record.details.lock.map Fin.val).getD 0)] := by
      rw [noticeBytes_eq]; rfl
    rw [hfield, h]
    exact numBE_ofNat_of_lt (show k.val < 256 by omega)
  · have hbyte : (noticeBytes src n)[29]? = some (n.record.details.status.getD 0) := by rw [noticeBytes_eq]; rfl
    rw [byteAt, List.getD_eq_getElem?_getD, hbyte, h]
    rfl
  · have hbyte : (noticeBytes src n)[30]? = some ((n.record.details.cause.map Cause.code).getD 0) := by rw [noticeBytes_eq]; rfl
    rw [byteAt, List.getD_eq_getElem?_getD, hbyte, h]
    rfl

end

/-- A packet shorter than its kind's header is of undefined kind (R194). -/
theorem readPacket_of_short (k : Byte) (rest : List Byte)
    (h : rest.length < 3 ∨ (k.toNat ≤ 3 ∧ rest.length < 15) ∨ (k.toNat = 8 ∧ rest.length < 11) ∨
      (k.toNat = 12 ∧ rest.length < 31)) : readPacket (k :: rest) = .undefinedKind := by
  have hlen : (k :: rest).length = rest.length + 1 := rfl
  have hcode : ∀ c : Byte, k = c → k.toNat = c.toNat := fun c hk => by rw [hk]
  have h1 := hcode 1
  have h2 := hcode 2
  have h3 := hcode 3
  have h8 := hcode 8
  have h12 := hcode 12
  have h15 := hcode 15
  have hnum : (1 : Byte).toNat = 1 ∧ (2 : Byte).toNat = 2 ∧ (3 : Byte).toNat = 3 ∧ (8 : Byte).toNat = 8 ∧ (12 : Byte).toNat = 12 ∧
      (15 : Byte).toNat = 15 := by decide
  rw [readPacket, if_neg, if_neg, if_neg, if_neg, if_neg, if_neg]
  all_goals
    rintro ⟨hk, hl⟩
    have hv := hcode _ hk
    omega

/-- Settles O28: each kind's packet has its header of the right length, and its fields are the bytes where Tables 11-1 to 11-4 put them. -/
theorem packetsReadBackAsSent : Obligations.PacketsReadBackAsSent := by
  refine ⟨readPacket_requestBytes, readPacket_completionBytes, readPacket_creditBytes, fun src n hd => ?_, readPacket_of_short⟩
  obtain ⟨hkind, hsrc, hseq, hdropped, hclass, htime, hpresence⟩ := fieldAt_noticeBytes src n hd
  exact ⟨readPacket_noticeBytes src n, noticeBytes_length src n, hkind, hsrc, hseq, hdropped, hclass, htime, hpresence,
    detailAt_noticeBytes src n⟩

/-! ## The placement of a notice (R164 to R166) -/

/-- The oldest URGENT record, else the oldest, is the next (R164). -/
theorem nextRecord_of_oldest {pre post : List NoticeRecord} {r : NoticeRecord}
    (h : (r.cls = .urgent ∧ ∀ x ∈ pre, x.cls ≠ .urgent) ∨ (pre = [] ∧ ∀ x ∈ r :: post, x.cls ≠ .urgent)) :
    nextRecord (pre ++ r :: post) = some (r, pre ++ post) := by
  rcases h with ⟨hr, hpre⟩ | ⟨rfl, hnone⟩
  · have hfind : (pre ++ r :: post).find? (fun x => decide (x.cls = .urgent)) = some r := by
      have hfirst : pre.find? (fun x => decide (x.cls = .urgent)) = none :=
        List.find?_eq_none.2 fun x hx => by simpa using hpre x hx
      rw [List.find?_append, hfirst, List.find?_cons_of_pos (by simpa using hr)]
      rfl
    have hnot : r ∉ pre := fun hmem => hpre r hmem hr
    simp only [nextRecord, hfind, erase_middle hnot]
  · have hfind : (r :: post).find? (fun x => decide (x.cls = .urgent)) = none :=
      List.find?_eq_none.2 fun x hx => by simpa using hnone x hx
    simp only [nextRecord, List.nil_append, hfind]

/-- Settles O30: the chosen record, stamped, at the tail of an UP port with a free slot; else nothing is placed. -/
theorem noticePlacementStampsOldestUrgent : Obligations.NoticePlacementStampsOldestUrgent := by
  refine ⟨fun s p pre post r h ht hl hroom hq hr => ?_, fun s hno => ?_⟩
  · have hexec : exec .noticePlacement s = execNoticePlacement s := rfl
    rw [hexec, execNoticePlacement, ht, hq, nextRecord_of_oldest hr]
    dsimp only
    rw [if_pos ⟨hl, hroom⟩]
    have hport : ∀ u : NoticeUnit, ({ s with notices := u } : State).port p = s.port p := fun u => by cases p <;> rfl
    rw [enqueue, hport, PortState.enqueue_eq_queued hl (by simp)]
    refine congrArg _ (settle_of_quiet _ (quiet_setPort (quiet_notices h _) ?_ ?_ ?_)) <;> rw [hport]
    · exact Iff.rfl
    · rfl
    · rfl
  · have hexec : exec .noticePlacement s = execNoticePlacement s := rfl
    rw [hexec, execNoticePlacement]
    rcases hno with hnone | hempty | ⟨p, ht, hbusy⟩
    · rw [hnone]
    · rw [hempty]
      cases s.notices.targetPort <;> rfl
    · rw [ht]
      cases nextRecord s.notices.queue with
      | none => rfl
      | some a =>
        dsimp only
        rw [if_neg fun hok => hbusy.elim (fun hl => hl hok.1) fun hfull => absurd hok.2 (by omega)]

end Sys2Proof.Machine
end

section
/-! Free slots and the claims they go to (05 5.2), and the departures that free them (01 1.4, 1.7). -/

namespace Sys2Proof.Machine

open Sys2Proof.Safety

/-! ## Giving out to the end (R104) -/

/-- More placings than free slots make no difference. -/
theorem giveOut_succ {n : Nat} {s : State} (h : freeSlots s ≤ n) : giveOut (n + 1) s = giveOut n s := by
  induction n generalizing s with
  | zero => exact giveOut_of_slotLaw 1 s (giveOut_slotLaw 0 s h)
  | succ n ih =>
    have hless : ∀ {p a}, nextClaim p s = some a → freeSlots (placeClaim p a s) ≤ n := fun ha => by
      have := freeSlots_placeClaim ha
      omega
    cases hu : nextClaim .u s with
    | some a => rw [giveOut_u _ s a hu, giveOut_u _ s a hu, ih (hless hu)]
    | none =>
      cases hd : nextClaim .d s with
      | some a => rw [giveOut_d _ s a hu hd, giveOut_d _ s a hu hd, ih (hless hd)]
      | none =>
        have hrest : SlotLaw s := fun p => by cases p <;> assumption
        rw [giveOut_of_slotLaw _ s hrest, giveOut_of_slotLaw _ s hrest]

/-- A port without a free slot keeps what it has while slots are given out. -/
theorem giveOut_port_of_no_slot {q : Port} {s : State} (fuel : Nat) (h : slotFree q s = false) :
    (giveOut fuel s).port q = s.port q := by
  refine giveOut_induction (P := fun t => t.port q = s.port q) (fun p a t ha ht => ?_) fuel s rfl
  obtain ⟨r, hr⟩ := placeClaim_port_of_stands (nextClaim_stands ha)
  have hne : q ≠ p := by
    rintro rfl
    have hfree := slotFree_of_nextClaim ha
    rw [slotFree, ht, ← slotFree, h] at hfree
    cases hfree
  rw [hr, if_neg hne, ht]

/-- A full port keeps what it has while slots are given out. -/
theorem giveOut_port_of_full {q : Port} {s : State} (fuel : Nat) (h : 16 ≤ (s.port q).completions.length) :
    (giveOut fuel s).port q = s.port q := by
  refine giveOut_port_of_no_slot fuel ?_
  rw [← Bool.not_eq_true, slotFree_iff]
  omega

/-- Where no head waits and the other port has nothing to give out, settling goes on from the placing of the one claim. -/
theorem settle_of_claim {p : Port} {a : Claim} {s : State} (h : nextClaim p s = some a) (ho : nextClaim (otherPort p) s = none)
    (hw : ∀ q, (s.port q).headWaits = false) : settle s = settle (placeClaim p a s) := by
  have hw' : ∀ q, ((placeClaim p a s).port q).headWaits = false := fun q => by rw [placeClaim_headWaits, hw]
  have hfuel : giveOut 32 (placeClaim p a s) = giveOut 31 (placeClaim p a s) := by
    have := freeSlots_placeClaim h
    have := freeSlots_le s
    exact giveOut_succ (by omega)
  rw [settle_of_heads s (hw .u) (hw .d), settle_of_heads _ (hw' .u) (hw' .d), hfuel]
  cases p with
  | u => exact giveOut_u 31 s a h
  | d => exact giveOut_d 31 s a ho h

/-- The row of the claim that a free slot goes to is the placing of that claim (log 7). -/
theorem exec_claimRow {p : Port} {a : Claim} {s : State} (h : nextClaim p s = some a) :
    exec (claimRow p a) s = .next (settle (placeClaim p a s)) := by
  have hgive : giveSlot p a s = settle (placeClaim p a s) := if_pos h
  cases a with
  | outbox k =>
    obtain ⟨b, hb, rfl⟩ := nextClaim_stands h
    have hexec : exec (claimRow b.port (.outbox k)) s = execOutboxGrantPlacing k s := rfl
    rw [hexec, execOutboxGrantPlacing, hb]
    exact congrArg _ hgive
  | expired k => exact congrArg _ hgive
  | done e =>
    obtain ⟨-, x, hx, -, rfl⟩ := nextClaim_stands h
    have hexec : exec (claimRow (originPort x.dir) (.done e)) s = execDoneEntryDelivery e s := rfl
    rw [hexec, execDoneEntryDelivery, hx]
    exact congrArg _ hgive

/-- The completion of a DONE entry, in the words of the statements (R90, R107 to R109). -/
theorem Entry.completion_eq {x : Entry} {r : Result} (h : x.result = some r) : x.completion = resultCompletion x r := by
  unfold Entry.completion resultCompletion
  rw [h]
  cases r with
  | ok => cases x.kind <;> simp [Result.status, Result.detail]
  | failed f => cases f <;> cases x.kind <;> simp [Result.status, Result.detail, Failure.detail]

/-- What a claim that stands places at its port (R146, R151, R90). -/
theorem placeClaim_answer {p : Port} {a : Claim} {s : State} (h : ClaimStands p s a) (hl : EntryLaw s) :
    ∃ r, claimAnswer p s a r ∧ ((placeClaim p a s).port p).completions = (s.port p).completions ++ [r] := by
  cases a with
  | outbox k =>
    obtain ⟨b, hb, rfl⟩ := h
    exact ⟨b.answer, ⟨b, hb, rfl, rfl⟩, by simp [placeClaim, placeOutbox, hb, place]⟩
  | expired k =>
    obtain ⟨b, hb⟩ := h
    obtain ⟨hp, pre, post, hsplit, hpre⟩ := List.find?_eq_some_iff_append.1 hb
    refine ⟨b.answer, ⟨b, pre, post, hsplit, by simpa using hp, fun g hg => by simpa using hpre g hg, rfl⟩, ?_⟩
    simp [placeClaim, placeExpired, hb, place]
  | done e =>
    obtain ⟨-, x, hx, hs, rfl⟩ := h
    obtain ⟨-, -, -, hdone, -⟩ := hl e x hx
    obtain ⟨-, hr, -⟩ := hdone (.inl hs)
    obtain ⟨r, hr⟩ := Option.isSome_iff_exists.1 hr
    refine ⟨resultCompletion x r, ⟨x, r, hx, hs, rfl, hr, rfl⟩, ?_⟩
    simp [placeClaim, deliverDone, hx, place, Entry.completion_eq hr]

/-! ## The transmitter's choice (R13) -/

theorem PortState.choice_eq_credit_iff (x : PortState) : x.choice = .credit ↔ x.link ≠ .down ∧ 0 < x.creditsOwed := by
  rw [PortState.choice]
  by_cases hl : x.link = .down
  · simp [hl]
  · by_cases ho : x.creditsOwed = 0
    · cases hc : x.completions <;> cases hr : x.egressReady <;> cases hlast : x.lastChoice <;> simp [hl, ho]
    · simp [hl, Nat.pos_of_ne_zero ho]

/-- A completion leaves when no CRD waits, and the egress head is not ready or had the last choice. -/
theorem PortState.choice_eq_completion_iff (x : PortState) :
    x.choice = .completion ↔
      x.link ≠ .down ∧ x.creditsOwed = 0 ∧ x.completions ≠ [] ∧ (Safety.egressReady x → x.lastChoice = .egress) := by
  rw [← x.egressReady_iff, PortState.choice]
  by_cases hl : x.link = .down
  · simp [hl]
  · by_cases ho : x.creditsOwed = 0
    · cases hc : x.completions <;> cases hr : x.egressReady <;> cases hlast : x.lastChoice <;> simp [hl, ho]
    · simp [hl, ho, Nat.pos_of_ne_zero ho]

/-- A port after its completion head has left (R102, R4). -/
def completionSent (x : PortState) (a : Completion) (rest : List Completion) (last : TxQueue) : PortState :=
  { x with
    completions := rest, lastChoice := last
    lane := completionBytes a.status.code a.node x.identity a.tag a.detail a.data }

theorem exec_completionDeparture_of_choice {p : Port} {s : State} {a : Completion} {rest : List Completion}
    (h : (s.port p).choice = .completion) (hc : (s.port p).completions = a :: rest) :
    exec (.completionDeparture p) s =
      .next (settle (s.setPort p (completionSent (s.port p) a rest ((s.port p).chose .completion)))) := by
  have hexec : exec (.completionDeparture p) s = execCompletionDeparture p s := rfl
  rw [hexec, execCompletionDeparture, if_pos h, hc]
  rfl

theorem exec_completionDeparture_of_not {p : Port} {s : State} (h : (s.port p).choice ≠ .completion) :
    exec (.completionDeparture p) s = .next s := if_neg h

/-- The record of the last choice after a completion has left: it changes only where both heads were ready. -/
theorem PortState.chose_completion {x : PortState} (hc : x.completions ≠ []) :
    (Safety.egressReady x → x.chose .completion = .completion) ∧ (¬ Safety.egressReady x → x.chose .completion = x.lastChoice) := by
  rw [← x.egressReady_iff]
  have hsome : x.completions.isEmpty = false := by simpa using hc
  refine ⟨fun hr => ?_, fun hr => ?_⟩ <;> simp [PortState.chose, hsome, hr]

/-- A freed slot that nobody claims leaves the part at rest. -/
theorem settle_completionSent {p : Port} {s : State} {a : Completion} {rest : List Completion} {last : TxQueue} (h : Quiet s)
    (ht : topClaim p s = none) :
    settle (s.setPort p (completionSent (s.port p) a rest last)) = s.setPort p (completionSent (s.port p) a rest last) := by
  have hw : ∀ q, ((s.setPort p (completionSent (s.port p) a rest last)).port q).headWaits = false := by
    intro q
    rw [State.port_setPort]
    split
    · exact quiet_heads h p
    · exact quiet_heads h q
  refine settle_of_quiet _ ⟨fun q => ?_, hw .u, hw .d⟩
  by_cases hq : q = p
  · subst hq
    rw [nextClaim_eq_none_iff, topClaim_setPort]
    exact fun _ => ht
  · have hfree : slotFree q (s.setPort p (completionSent (s.port p) a rest last)) = slotFree q s := by simp [slotFree, hq]
    rw [nextClaim, topClaim_setPort, hfree]
    exact h.1 q

theorem claimAnswer_setPort {p q : Port} {x : PortState} {s : State} {a : Claim} {r : Completion}
    (h : claimAnswer p (s.setPort q x) a r) : claimAnswer p s a r := by
  cases a <;> simpa [claimAnswer] using h

/-- Settles O19: the transmitter's choice decides what leaves; the slot that a completion frees goes to the claim at the top. -/
theorem creditAndCompletionDepartures : Obligations.CreditAndCompletionDepartures := by
  intro p s
  refine ⟨fun hl howed => ?credit, fun hno => ?noCredit, fun a rest h ht hl howed hc => ?completion,
    fun a rest cl last hl howed hc hlen ht hother hu hd hlaw hready hidle => ?claimed, fun hno => ?noCompletion⟩
  case credit =>
    have hchoice : (s.port p).choice = .credit := (PortState.choice_eq_credit_iff _).2 ⟨hl, howed⟩
    refine ⟨if_pos hchoice, exec_completionDeparture_of_not (by rw [hchoice]; decide), ?_⟩
    exact if_neg (by rw [hchoice]; decide)
  case noCredit =>
    refine if_neg fun hchoice => ?_
    obtain ⟨hl, howed⟩ := (PortState.choice_eq_credit_iff _).1 hchoice
    exact hno.elim hl (Nat.ne_of_gt howed)
  case completion =>
    have hsome : (s.port p).completions ≠ [] := by simp [hc]
    obtain ⟨hready, hidle⟩ := PortState.chose_completion hsome
    refine ⟨fun hr hlast => ?_, fun hr hlast => ?_, fun hr => ?_⟩
    · have hchoice := (PortState.choice_eq_completion_iff _).2 ⟨hl, howed, hsome, fun _ => hlast⟩
      rw [exec_completionDeparture_of_choice hchoice hc, settle_completionSent h ht, hready hr]
      rfl
    · refine exec_completionDeparture_of_not fun hchoice => ?_
      obtain ⟨-, -, -, hturn⟩ := (PortState.choice_eq_completion_iff _).1 hchoice
      rw [hturn hr] at hlast
      cases hlast
    · have hchoice := (PortState.choice_eq_completion_iff _).2 ⟨hl, howed, hsome, fun h => absurd h hr⟩
      rw [exec_completionDeparture_of_choice hchoice hc, settle_completionSent h ht, hidle hr]
      rfl
  case claimed =>
    have hsome : (s.port p).completions ≠ [] := by simp [hc]
    obtain ⟨hchose, hkept⟩ := PortState.chose_completion hsome
    have hchoice := (PortState.choice_eq_completion_iff _).2 ⟨hl, howed, hsome, fun hr => (hready hr).1⟩
    have hlast : (s.port p).chose .completion = last := by
      by_cases hr : Safety.egressReady (s.port p)
      · rw [hchose hr, (hready hr).2]
      · rw [hkept hr, hidle hr]
    have hw : ∀ q, (s.port q).headWaits = false := by
      intro q
      cases q
      · exact hu
      · exact hd
    generalize hx : completionSent (s.port p) a rest last = x
    have hslots : x.completions = rest := by rw [← hx]; rfl
    have hlink : x.link = (s.port p).link := by rw [← hx]; rfl
    have hnext : nextClaim p (s.setPort p x) = some cl := by
      rw [nextClaim, if_pos, topClaim_setPort, ht]
      rw [slotFree_iff, State.port_setPort_self, hslots, hlink]
      exact ⟨hl, by omega⟩
    have hnone : nextClaim (otherPort p) (s.setPort p x) = none := by
      rw [← hother, nextClaim, nextClaim, topClaim_setPort, slotFree, State.port_setPort_ne _ _ _ _ (by cases p <;> decide), slotFree]
    have hw' : ∀ q, ((s.setPort p x).port q).headWaits = false := by
      intro q
      rw [State.port_setPort]
      split
      · rw [← hx]; exact hw p
      · exact hw q
    have hlaw' : EntryLaw (s.setPort p x) := fun e y hy => hlaw e y (by rwa [State.entry_setPort] at hy)
    have hdeparts : exec (.completionDeparture p) s = .next (settle (placeClaim p cl (s.setPort p x))) := by
      rw [exec_completionDeparture_of_choice hchoice hc, hlast, hx, settle_of_claim hnext hnone hw']
    obtain ⟨r, hr, hplaced⟩ := placeClaim_answer (nextClaim_stands hnext) hlaw'
    rw [State.port_setPort_self, hslots] at hplaced
    refine ⟨?_, _, r, hdeparts, claimAnswer_setPort hr, ?_⟩
    · rw [hdeparts, ← exec_claimRow hnext, ← hx]
      rfl
    · have hw'' : ∀ q, ((placeClaim p cl (s.setPort p x)).port q).headWaits = false := fun q => by rw [placeClaim_headWaits, hw']
      rw [settle_of_heads _ (hw'' .u) (hw'' .d), giveOut_port_of_full _ (by rw [hplaced]; simp [hlen]), hplaced]
  case noCompletion =>
    refine exec_completionDeparture_of_not fun hchoice => ?_
    obtain ⟨hl, -, hsome, -⟩ := (PortState.choice_eq_completion_iff _).1 hchoice
    exact hno.elim hl hsome

end Sys2Proof.Machine
end

section
/-! The rows of the claims on completion slots (05 5.2): what each claim does with its slot. -/

namespace Sys2Proof.Machine

open Sys2Proof.Safety

/-! ## Rest where no claim comes up -/

/-- A part stays quiet while no slot becomes free, no head begins to wait, and no claim comes up at a free slot (R104). -/
theorem quiet_of_claims {s t : State} (h : Quiet s) (hf : ∀ p, slotFree p t = true → slotFree p s = true)
    (hw : ∀ p, (t.port p).headWaits = (s.port p).headWaits)
    (hl : ∀ p k, slotFree p t = true → NoLockClaim p s k → NoLockClaim p t k)
    (hd : ∀ p e, doneClaims p t e = true → e ∈ t.doneOrder → doneClaims p s e = true ∧ e ∈ s.doneOrder) : Quiet t := by
  obtain ⟨hslots, hu, hdn⟩ := h
  refine ⟨fun p => (nextClaim_eq_none_iff p t).2 fun hfree => (topClaim_eq_none_iff p t).2 ⟨fun k hk => ?_, fun e he => ?_⟩,
    (hw .u).trans hu, (hw .d).trans hdn⟩
  all_goals
    obtain ⟨hlocks, hdone⟩ := (topClaim_eq_none_iff p s).1 ((nextClaim_eq_none_iff p s).1 (hslots p) (hf p hfree))
  · exact (lockClaim_eq_none_iff p t k).2 (hl p k hfree ((lockClaim_eq_none_iff p s k).1 (hlocks k hk)))
  · cases hc : doneClaims p t e with
    | false => rfl
    | true =>
      obtain ⟨hc', he'⟩ := hd p e hc he
      rw [hdone e he'] at hc'
      cases hc'

/-- A delivery makes no claim (R90). -/
theorem quiet_deliver {s : State} (h : Quiet s) (e : Fin 64) (x : Entry) : Quiet (deliver e x s) := by
  refine quiet_of_claims h (fun p => by simp [slotFree]) (fun p => by simp) (fun p k _ => by simp [NoLockClaim]) fun p i hc hi => ?_
  obtain ⟨y, hy, hs, hp⟩ := (doneClaims_iff p _ i).1 hc
  refine ⟨(doneClaims_iff p s i).2 ⟨y, ?_, hs, hp⟩, List.mem_of_mem_erase hi⟩
  rw [deliver_entry] at hy
  split at hy
  · split at hy
    · cases hy; cases hs
    · cases hy
  · exact hy

/-- A lock whose outbox has been emptied, or that holds fewer expiry answers, makes no new claim (R103). -/
theorem quiet_setLock_of_fewer {s : State} (h : Quiet s) (k : Fin 8) {x : Lock}
    (ho : x.outbox = none ∨ x.outbox = (s.lock k).outbox) (hx : ∀ b ∈ x.expired, b ∈ (s.lock k).expired) :
    Quiet (s.setLock k x) := by
  refine quiet_of_claims h (fun p => by simp) (fun p => by simp) (fun p j _ hno => ?_) (fun p e hc he => ⟨by simpa [doneClaims] using hc, by simpa using he⟩)
  by_cases hj : j = k
  · subst hj
    obtain ⟨hout, hexp⟩ := hno
    rw [NoLockClaim, State.lock_setLock_self]
    refine ⟨fun b hb => ?_, fun b hb => hexp b (hx b hb)⟩
    cases ho with
    | inl ho => rw [ho] at hb; cases hb
    | inr ho => exact hout b (ho ▸ hb)
  · rwa [NoLockClaim, State.lock_setLock, if_neg hj]

/-- Where the other port has nothing to give out and no head waits, filling the port's queue leaves nothing to settle (R101). -/
theorem quiet_filled {p : Port} {s : State} {x : PortState} (ho : nextClaim (otherPort p) s = none)
    (hw : ∀ q, (s.port q).headWaits = false) (hx : x.headWaits = false) (hfull : 16 ≤ x.completions.length) :
    Quiet (s.setPort p x) := by
  have hheads : ∀ q, ((s.setPort p x).port q).headWaits = false := by
    intro q
    rw [State.port_setPort]
    split
    · exact hx
    · exact hw q
  refine ⟨fun q => (nextClaim_eq_none_iff q _).2 fun hf => ?_, hheads .u, hheads .d⟩
  rw [slotFree_iff] at hf
  obtain ⟨hl, hlen⟩ := hf
  by_cases hq : q = p
  · subst hq
    rw [State.port_setPort_self] at hlen
    omega
  · have hqo : q = otherPort p := by revert hq; cases p <;> cases q <;> decide
    rw [State.port_setPort_ne _ _ _ _ hq] at hl hlen
    rw [topClaim_setPort]
    exact (nextClaim_eq_none_iff q s).1 (by rw [hqo]; exact ho) ((slotFree_iff q s).2 ⟨hl, hlen⟩)

/-! ## The claim at the top (R104) -/

/-- The first list element that yields something decides. -/
theorem findSome?_eq_of_first {n : Nat} {β : Type} {f : Fin n → Option β} {k : Fin n} {b : β} (hk : f k = some b)
    (h : ∀ j, j < k → f j = none) : (List.finRange n).findSome? f = some b := by
  have hsplit : List.finRange n = (List.finRange n).take k ++ (List.finRange n).drop k := (List.take_append_drop _ _).symm
  have hhead : (List.finRange n).drop k = k :: (List.finRange n).drop (k + 1) := by
    rw [List.drop_eq_getElem_cons (by simp)]
    simp
  have hbefore : ((List.finRange n).take k).findSome? f = none := by
    refine List.findSome?_eq_none_iff.2 fun j hj => h j ?_
    obtain ⟨i, hi, rfl⟩ := List.mem_take_iff_getElem.1 hj
    rw [Fin.lt_def]
    simp only [List.getElem_finRange]
    simp at hi ⊢
    omega
  rw [hsplit, List.findSome?_append, hbefore, hhead, List.findSome?_cons, hk]
  rfl

/-- The lowest lock that claims has the highest rank (R104). -/
theorem topClaim_of_lock {p : Port} {k : Fin 8} {a : Claim} {s : State} (h : lockClaim p s k = some a)
    (hno : ∀ j, j < k → NoLockClaim p s j) : topClaim p s = some a := by
  have hfind : allLocks.findSome? (lockClaim p s) = some a :=
    findSome?_eq_of_first h fun j hj => (lockClaim_eq_none_iff p s j).2 (hno j hj)
  rw [topClaim, hfind]

/-- With no lock claim the first DONE entry of the port in done order has the highest rank (R104). -/
theorem topClaim_of_done {p : Port} {e : Fin 64} {pre post : List (Fin 64)} {s : State} (hno : ∀ k, NoLockClaim p s k)
    (hd : s.doneOrder = pre ++ e :: post) (he : doneClaims p s e = true) (hpre : ∀ i ∈ pre, doneClaims p s i = false) :
    topClaim p s = some (.done e) := by
  have hlocks : allLocks.findSome? (lockClaim p s) = none :=
    List.findSome?_eq_none_iff.2 fun k _ => (lockClaim_eq_none_iff p s k).2 (hno k)
  have hfirst : pre.find? (doneClaims p s) = none := List.find?_eq_none.2 fun i hi => by rw [hpre i hi]; decide
  have hfind : s.doneOrder.find? (doneClaims p s) = some e := by
    rw [hd, List.find?_append, hfirst, List.find?_cons_of_pos he]
    rfl
  rw [topClaim, hlocks, hfind]
  rfl

/-! ## The rows -/

theorem slotFree_of_oneSlot {p : Port} {s : State} (h : OneSlot p s) : slotFree p s = true := by
  obtain ⟨hl, hlen, -⟩ := h
  exact (slotFree_iff p s).2 ⟨hl, by omega⟩

/-- The port with its one free slot filled. -/
theorem quiet_of_oneSlot {p : Port} {s : State} (h : OneSlot p s) (a : Completion) : Quiet (place p a s) := by
  obtain ⟨-, hlen, ho, hu, hd⟩ := h
  have hw : ∀ q, (s.port q).headWaits = false := by
    intro q
    cases q
    · exact hu
    · exact hd
  exact quiet_filled ho hw (hw p) (by simp [hlen])

/-- With every free slot given out the rows of the claims change nothing (log 7). -/
theorem giveSlot_of_slotLaw {p : Port} {a : Claim} {s : State} (h : SlotLaw s) : giveSlot p a s = s :=
  if_neg (by rw [h p]; simp)

/-- Settles O31: the claim with the highest rank is the row's own, and filling the one free slot leaves nothing else to settle. -/
theorem claimsTakeTheirSlot : Obligations.ClaimsTakeTheirSlot := by
  refine ⟨fun p k h s hone hout hp hlow => ?outbox, fun p k h pre post s hone hout hexp hp hpre hlow => ?expired,
    fun p e x r pre post s hone hno hd hx hs hr hp hpre => ?done, fun s e k p h => ?full⟩
  case outbox =>
    subst hp
    have hfree := slotFree_of_oneSlot hone
    have hnext : nextClaim h.port s = some (.outbox k) := by
      rw [nextClaim, if_pos hfree]
      exact topClaim_of_lock (by simp [lockClaim, hout]) hlow
    have hbase := quiet_of_oneSlot hone h.answer
    have hrow : exec (.outboxGrantPlacing k) s =
        .next (settle ((place h.port h.answer s).setLock k ((s.lock k).outboxPlaced h.answer.status))) := by
      refine (exec_claimRow hnext).trans ?_
      simp only [placeClaim, placeOutbox, hout, place, State.port_setLock, State.setPort_setLock]
    refine ⟨fun hst => ?_, fun hst hh => ?_⟩
    · rw [hrow, hst, State.setPort_setLock, leaseTicks_eq_msTicks]
      exact congrArg _ (settle_of_quiet _ (quiet_setLock_of_fewer hbase k (.inl rfl) (by simp [Lock.outboxPlaced, place])))
    · rw [hrow, hst, State.setPort_setLock]
      refine congrArg _ (settleWith_setLock_handOn [] (quiet_setLock_of_fewer hbase k (.inl rfl) (by simp [place])) hh rfl)
  case expired =>
    subst hp
    have hfree := slotFree_of_oneSlot hone
    have hnext : nextClaim h.port s = some (.expired k) := by
      rw [nextClaim, if_pos hfree]
      refine topClaim_of_lock ?_ hlow
      have hmem : (s.lock k).expired.any (fun g => decide (g.port = h.port)) = true := by simp [hexp]
      have hnot : (s.lock k).outbox.any (fun g => decide (g.port = h.port)) = false := by
        cases ho : (s.lock k).outbox with
        | none => rfl
        | some g => simpa using hout g ho
      rw [lockClaim, hnot, hmem]
      rfl
    refine (exec_claimRow hnext).trans (congrArg _ ?_)
    have hplaced := placeExpired_of_first hexp hpre
    rw [placeClaim, hplaced, place, State.port_setLock]
    refine settle_of_quiet _ ?_
    rw [State.setPort_setLock]
    refine quiet_setLock_of_fewer (x := { s.lock k with expired := pre ++ post }) (quiet_of_oneSlot hone h.answer) k
      (.inr (by simp [place])) fun b hb => ?_
    simp only [place, State.lock_setPort, hexp]
    exact List.mem_append.2 ((List.mem_append.1 hb).imp_right (List.mem_cons_of_mem _))
  case done =>
    subst hp
    have hfree := slotFree_of_oneSlot hone
    have hclaims : ∀ i ∈ pre, doneClaims (originPort x.dir) s i = false := fun i hi => by
      rw [Bool.eq_false_iff, Ne, doneClaims_iff]
      rintro ⟨y, hy, hys, hyp⟩
      exact hpre i hi y hy hys hyp
    have hnext : nextClaim (originPort x.dir) s = some (.done e) := by
      rw [nextClaim, if_pos hfree]
      exact topClaim_of_done hno hd ((doneClaims_iff _ s e).2 ⟨x, hx, hs, rfl⟩) hclaims
    have hnot : e ∉ pre := fun he => hpre e he x hx hs rfl
    have hplaced : placeClaim (originPort x.dir) (.done e) s = deliver e x (place (originPort x.dir) (resultCompletion x r) s) := by
      simp only [placeClaim, deliverDone, hx, Entry.completion_eq hr]
    refine (exec_claimRow hnext).trans (congrArg _ ?_)
    have horder : (place (originPort x.dir) (resultCompletion x r) s).doneOrder.erase e = pre ++ post := by
      rw [place_doneOrder, hd, erase_middle hnot]
    rw [hplaced, settle_of_quiet _ (quiet_deliver (quiet_of_oneSlot hone _) e x), deliver, releaseWindow_eq, horder]
    simp only [Entry.timedOut_iff, place]
  case full =>
    refine ⟨?_, ?_, congrArg _ (giveSlot_of_slotLaw h)⟩
    · cases hx : s.entry e with
      | none => simp only [exec, execDoneEntryDelivery, hx]
      | some x => simp only [exec, execDoneEntryDelivery, hx, giveSlot_of_slotLaw h]
    · cases hx : (s.lock k).outbox with
      | none => simp only [exec, execOutboxGrantPlacing, hx]
      | some x => simp only [exec, execOutboxGrantPlacing, hx, giveSlot_of_slotLaw h]

end Sys2Proof.Machine
end

section
/-! Entries that take their result at an event (04 4.5 to 4.7): the last answers and the deadlines' expiries. -/

namespace Sys2Proof.Machine

open Sys2Proof.Safety

/-! ## The result that the segments form (R84) -/

/-- The model's result of a resolved entry is the one of the statements. -/
theorem resultOf_formResult {x : Entry} (h : x.resolved = true) : ResultOf x.segments x.formResult := by
  unfold Entry.formResult
  split
  · next f hf =>
    obtain ⟨pre, g, post, hsplit, hg, hpre⟩ := List.findSome?_eq_some_iff.1 hf
    refine .inr ⟨pre.length, g, f, rfl, by simp [hsplit], ?_, fun j hj => ⟨pre[j], ?_, ?_⟩⟩
    · revert hg
      cases g.state <;> simp [SegState.failure]
    · simp [hsplit, List.getElem?_append_left hj]
    · have hnone := hpre pre[j] (List.getElem_mem hj)
      have hres := x.resolved_iff.1 h pre[j] (by rw [hsplit]; simp)
      revert hnone hres
      cases pre[j].state <;> simp [SegState.failure, SegState.resolved]
  · next hnone =>
    refine .inl ⟨rfl, fun g hg => ?_⟩
    have hno := List.findSome?_eq_none_iff.1 hnone g hg
    have hres := x.resolved_iff.1 h g hg
    revert hno hres
    cases g.state <;> simp [SegState.failure, SegState.resolved]

/-- A failed segment makes a failed result (R84). -/
theorem formResult_failed {x : Entry} {g : Segment} {f : Failure} (hg : g ∈ x.segments) (hs : g.state = .failed f) :
    ∃ f', x.formResult = .failed f' := by
  unfold Entry.formResult
  split
  · next f' _ => exact ⟨f', rfl⟩
  · next hnone =>
    have := List.findSome?_eq_none_iff.1 hnone g hg
    rw [hs] at this
    cases this

/-! ## Deliveries -/

theorem deliver_setEntry (e : Fin 64) (x : Entry) (s : State) (z : Option Entry) :
    deliver e x (s.setEntry e z) = deliver e x s := by
  cases hd : x.dir <;> simp [deliver, releaseWindow, State.setWindow, State.setEntry, State.window, hd]

/-- A delivery of an entry that the done order does not list (R91, R92). -/
theorem deliver_eq {e : Fin 64} {x : Entry} {s : State} (h : e ∉ s.doneOrder) :
    deliver e x s = (released x.dir x.window s).setEntry e x.delivered := by
  have horder : ((released x.dir x.window s).setEntry e x.delivered).doneOrder = s.doneOrder := by
    rw [State.setEntry_doneOrder, released, State.setWindow_doneOrder]
  rw [deliver, List.erase_of_not_mem h, ← horder]
  rfl

/-- A delivery of the last entry of the done order (R90). -/
theorem deliver_append {e : Fin 64} {x : Entry} {s : State} (h : e ∉ s.doneOrder) :
    deliver e x { s with doneOrder := s.doneOrder ++ [e] } = deliver e x s := by
  rw [deliver, deliver, List.erase_of_not_mem h]
  simp only [List.erase_append_right _ h, List.erase_cons_head, List.append_nil]
  cases hd : x.dir <;> simp [releaseWindow, State.setWindow, State.setEntry, State.window, hd]

theorem place_setEntry (p : Port) (a : Completion) (s : State) (e : Fin 64) (z : Option Entry) :
    place p a (s.setEntry e z) = (place p a s).setEntry e z := by
  rw [place, State.port_setEntry, State.setPort_setEntry, place]

theorem place_doneOrder_with (p : Port) (a : Completion) (s : State) (l : List (Fin 64)) :
    place p a { s with doneOrder := l } = { place p a s with doneOrder := l } := by
  cases p <;> rfl

/-! ## A result taken where all slots are given out -/

/-- The state in which entry `e` has become DONE as `z` (R90). -/
def doneAppended (e : Fin 64) (z : Entry) (s : State) : State :=
  { s.setEntry e (some z) with doneOrder := s.doneOrder ++ [e] }

theorem takeResult_eq_doneAppended {e : Fin 64} {s : State} {y : Entry} (hy : s.entry e = some y) (h : y.due = true)
    (hk : y.kind ≠ .absorbed) (ho : y.orphaned = false) :
    takeResult e s = (doneAppended e { y.withResult with state := .done } s, []) :=
  takeResult_done e s y hy (y.due_iff.1 h) hk ho

section

variable {e : Fin 64} {s : State} {y z : Entry}

theorem doneClaims_doneAppended (q : Port) (i : Fin 64) (hz : z.state = .done) :
    doneClaims q (doneAppended e z s) i = if i = e then decide (originPort z.dir = q) else doneClaims q s i := by
  have hentry : (doneAppended e z s).entry i = if i = e then some z else s.entry i := by
    rw [doneAppended, State.entry_doneOrder, State.entry_setEntry]
  unfold doneClaims
  rw [hentry]
  by_cases hi : i = e <;> simp [hi, hz]

@[simp] theorem doneAppended_port (q : Port) : (doneAppended e z s).port q = s.port q := by cases q <;> rfl

/-- A port without a free slot, or that is not the origin of the new DONE entry, gives nothing out. -/
theorem nextClaim_doneAppended_eq_none {q : Port} (h : SlotLaw s) (hz : z.state = .done)
    (hq : slotFree q s = true → originPort z.dir ≠ q) : nextClaim q (doneAppended e z s) = none := by
  refine (nextClaim_eq_none_iff q _).2 fun hf => ?_
  have hfree : slotFree q s = true := by simpa [slotFree] using hf
  obtain ⟨hlocks, hdone⟩ := (topClaim_eq_none_iff q s).1 ((nextClaim_eq_none_iff q s).1 (h q) hfree)
  refine (topClaim_eq_none_iff q _).2 ⟨hlocks, fun i hi => ?_⟩
  rw [doneClaims_doneAppended q i hz]
  by_cases hi' : i = e
  · simp [hi', hq hfree]
  · rw [if_neg hi']
    exact hdone i ((List.mem_append.1 hi).resolve_right (by simpa using hi'))

/-- A free slot of its origin port goes to the new DONE entry, as nothing else claims one. -/
theorem nextClaim_doneAppended (h : SlotLaw s) (hz : z.state = .done) (he : e ∉ s.doneOrder)
    (hf : slotFree (originPort z.dir) s = true) : nextClaim (originPort z.dir) (doneAppended e z s) = some (.done e) := by
  obtain ⟨hlocks, hdone⟩ := (topClaim_eq_none_iff _ s).1 ((nextClaim_eq_none_iff _ s).1 (h (originPort z.dir)) hf)
  have hfree : slotFree (originPort z.dir) (doneAppended e z s) = true := by simpa [slotFree] using hf
  rw [nextClaim, if_pos hfree]
  refine topClaim_of_done (post := []) (fun k => ?_) rfl ?_ fun i hi => ?_
  · exact (lockClaim_eq_none_iff _ _ k).1 (hlocks k (List.mem_finRange k))
  · rw [doneClaims_doneAppended _ _ hz]
    simp
  · rw [doneClaims_doneAppended _ _ hz, if_neg (fun hie => he (by rwa [hie] at hi)), hdone i hi]

/-- A completion placed makes no claim. -/
theorem quiet_place {p : Port} {a : Completion} (h : Quiet s) : Quiet (place p a s) := by
  refine quiet_of_claims h (fun q hf => ?_) (fun q => place_headWaits p q a s) (fun q k _ => by simp [NoLockClaim])
    fun q i hc hi => ⟨by simpa [doneClaims] using hc, by simpa using hi⟩
  rw [slotFree_iff] at hf ⊢
  simp only [place, State.port_setPort] at hf
  split at hf
  · next hq =>
    subst hq
    obtain ⟨hl, hlen⟩ := hf
    rw [List.length_append, List.length_singleton] at hlen
    exact ⟨hl, by omega⟩
  · exact hf

/-- A READ or CONFIRMED entry that takes its result where its origin port has a slot is answered at the same event (R90, R103). -/
theorem settleWith_takeResult_placed (es : List Raise) (h : Quiet s) (hy : s.entry e = some y) (hdue : y.due = true)
    (hk : y.kind ≠ .absorbed) (ho : y.orphaned = false) (he : e ∉ s.doneOrder) (hf : slotFree (originPort y.dir) s = true) :
    settleWith es (takeResult e s).1 =
      raiseAll es (deliver e y.withResult (place (originPort y.dir) (resultCompletion y y.formResult) s)) := by
  obtain ⟨hslots, -, -⟩ := id h
  have hplaced : placeClaim (originPort y.dir) (.done e) (doneAppended e { y.withResult with state := .done } s) =
      deliver e y.withResult (place (originPort y.dir) (resultCompletion y y.formResult) s) := by
    have hentry : (doneAppended e { y.withResult with state := .done } s).entry e = some { y.withResult with state := .done } := by
      rw [doneAppended, State.entry_doneOrder, State.entry_setEntry_self]
    have hanswer : ({ y.withResult with state := .done } : Entry).completion = resultCompletion y y.formResult :=
      Entry.completion_eq rfl
    simp only [placeClaim, deliverDone, hentry, hanswer]
    calc deliver e { y.withResult with state := .done }
          (place (originPort y.dir) (resultCompletion y y.formResult) (doneAppended e { y.withResult with state := .done } s))
        = deliver e y.withResult
          { (place (originPort y.dir) (resultCompletion y y.formResult) s).setEntry e (some { y.withResult with state := .done }) with
            doneOrder := ((place (originPort y.dir) (resultCompletion y y.formResult) s).setEntry e
              (some { y.withResult with state := .done })).doneOrder ++ [e] } := by
          rw [doneAppended, place_doneOrder_with, place_setEntry]
          simp only [State.setEntry_doneOrder, place_doneOrder]
          rfl
      _ = _ := by rw [deliver_append (by simpa using he), deliver_setEntry]
  have hother : nextClaim (otherPort (originPort y.dir)) (doneAppended e { y.withResult with state := .done } s) = none :=
    nextClaim_doneAppended_eq_none hslots rfl fun _ => by cases hd : y.dir <;> simp [originPort, otherPort, hd]
  rw [takeResult_eq_doneAppended hy hdue hk ho,
    settleWith_of_one (p := originPort y.dir) es (nextClaim_doneAppended (z := { y.withResult with state := .done }) hslots rfl he hf) hother, hplaced]
  rw [hplaced]
  exact quiet_deliver (quiet_place h) e _

/-- Where its origin port has no slot, it is DONE (R90). -/
theorem settleWith_takeResult_done (es : List Raise) (h : Quiet s) (hy : s.entry e = some y) (hdue : y.due = true)
    (hk : y.kind ≠ .absorbed) (ho : y.orphaned = false) (hf : slotFree (originPort y.dir) s = false) :
    settleWith es (takeResult e s).1 = raiseAll es (doneAppended e { y.withResult with state := .done } s) := by
  rw [takeResult_eq_doneAppended hy hdue hk ho]
  obtain ⟨hslots, hu, hd⟩ := h
  refine settleWith_of_quiet es _ ⟨fun q => nextClaim_doneAppended_eq_none hslots rfl ?_, hu, hd⟩
  rintro hfree rfl
  rw [show originPort y.dir = originPort y.withResult.dir from rfl, hfree] at hf
  cases hf

/-- An orphaned one is delivered without an answer (R92). -/
theorem settleWith_takeResult_orphaned (es : List Raise) (h : Quiet s) (hy : s.entry e = some y) (hdue : y.due = true)
    (hk : y.kind ≠ .absorbed) (ho : y.orphaned = true) :
    settleWith es (takeResult e s).1 = raiseAll es (deliver e y.withResult s) := by
  rw [takeResult_orphaned e s y hy (y.due_iff.1 hdue) hk ho]
  exact settleWith_of_quiet es _ (quiet_deliver h e y.withResult)

end

/-! ## A failed absorbed write at its window (R40, R41) -/

/-- A failed absorbed write applied to a window that is not DISABLED, in the words of the statements. -/
theorem Window.applyFailure_eq_faulted {w : Window} {x : Entry} {st : Status} (h : w.state ≠ .disabled) :
    w.applyFailure { address := x.address, node := x.node, status := st, later := 0 } = faulted x st w := by
  unfold Window.applyFailure faulted
  cases hw : w.state with
  | disabled => exact absurd hw h
  | active => rfl
  | faulted | draining => cases w.fault <;> rfl

theorem applyFailure_eq {x : Entry} {st : Status} {s : State} (h : (s.window x.dir x.window).state ≠ .disabled) :
    applyFailure x st s =
      (s.setWindow x.dir x.window (faulted x st (s.window x.dir x.window)), [absorbedRaise x st]) := by
  rw [applyFailure]
  simp only [Window.applyFailure_eq_faulted h, if_neg h]

/-- The result of an absorbed write that failed at a window that is not DISABLED (R40, R91). -/
theorem takeResult_absorbed_faulted {e : Fin 64} {s : State} {y : Entry} {f : Failure} (hy : s.entry e = some y)
    (hdue : y.due = true) (hk : y.kind = .absorbed) (hr : y.formResult = .failed f)
    (hw : (s.window y.dir y.window).state ≠ .disabled) :
    takeResult e s =
      (deliver e y.withResult (s.setWindow y.dir y.window (faulted y f.status (s.window y.dir y.window))),
        [absorbedRaise y f.status]) := by
  rw [takeResult_absorbed_failed hy hdue hk hr, applyFailure_eq hw]

/-! ## The answer that resolves the last segment -/

theorem not_mem_doneOrder_of_open {s : State} {e : Fin 64} {x : Entry} (h : DoneLaw s) (hx : s.entry e = some x)
    (ho : x.state = .pending ∨ x.state = .issued) : e ∉ s.doneOrder := by
  intro he
  obtain ⟨y, hy, hs⟩ := (h.2 e).1 he
  rw [hx] at hy
  cases hy
  rcases ho with ho | ho <;> rw [ho] at hs <;> cases hs

/-- An answer makes no TIMEOUT mark (R83). -/
theorem answerState_ne_timeout (kind : EntryKind) (g : Segment) (a : CplPacket) : answerState kind g a ≠ .failed .timeout := by
  unfold answerState
  split
  · simp
  · split <;> simp

theorem resolvedBy_timedOut {x : Entry} {g : Segment} {a : CplPacket} (h : x.timedOut = false) :
    (resolvedBy x g a).timedOut = false := by
  refine (Entry.timedOut_eq_false_iff _).2 fun b hb => ?_
  rcases List.mem_or_eq_of_mem_set hb with hb | rfl
  · exact x.timedOut_eq_false_iff.1 h b hb
  · exact answerState_ne_timeout _ _ _

/-- What the last answer finds: the entry due in a quiet part, not in the done order, without a TIMEOUT mark. -/
theorem exec_lastAnswer {p : Port} {a : CplPacket} {s : State} {x : Entry} {g : Segment} (h : Quiet s) (hlaw : EntryLaw s)
    (hdone : DoneLaw s) (hl : (s.port p).link ≠ .down) (hd : a.dst = (s.port p).identity) (hanswers : Answers p a s x g)
    (hres : Resolved (resolvedBy x g a).segments) :
    ∃ t, t = s.setEntry (tagEntry a.tag) (some (resolvedBy x g a)) ∧ Quiet t ∧ t.entry (tagEntry a.tag) = some (resolvedBy x g a) ∧
      (resolvedBy x g a).due = true ∧ (resolvedBy x g a).timedOut = false ∧ tagEntry a.tag ∉ t.doneOrder ∧
      exec (.completionArrival p a) s =
        .next (settleWith (takeResult (tagEntry a.tag) t).2 (takeResult (tagEntry a.tag) t).1) := by
  obtain ⟨hx, hg, hopen, -⟩ := id hanswers
  obtain ⟨-, -, hclean, -⟩ := hlaw _ x hx
  have hstate : (resolvedBy x g a).state ≠ .done := by
    show x.state ≠ .done
    rcases hopen with ho | ho <;> simp [ho]
  refine ⟨_, rfl, quiet_setEntry h hstate, State.entry_setEntry_self _ _ _, ?_, resolvedBy_timedOut (hclean hopen).1, ?_, ?_⟩
  · exact (Entry.due_iff _).2 ⟨hopen, (resolved_iff_resolved _).2 hres⟩
  · rw [State.setEntry_doneOrder]
    exact not_mem_doneOrder_of_open hdone hx hopen
  · rw [exec_completionArrival hl hd, tableCompletion_of_answers hanswers, resolveSegment_eq_resolvedBy hg]

theorem Entry.delivered_of_not_timedOut {x : Entry} (h : x.timedOut = false) : x.delivered = none := by
  simp [Entry.delivered, h]

/-- Settles O17: the entry is due, and its completion finds a slot or waits in the done order. -/
theorem lastAnswerAnswersRequester : Obligations.LastAnswerAnswersRequester := by
  intro p a s x g h hlaw hdone hl hd hanswers hk hres
  obtain ⟨t, ht, hquiet, hy, hdue, htimed, he, hexec⟩ := exec_lastAnswer h hlaw hdone hl hd hanswers hres
  have hslot : ∀ q, slotFree q t = slotFree q s := fun q => by rw [ht]; simp [slotFree]
  have hgone : (resolvedBy x g a).withResult.delivered = none := Entry.delivered_of_not_timedOut htimed
  have hraises : (takeResult (tagEntry a.tag) t).2 = [] := by
    rcases takeResult_cases (tagEntry a.tag) t with ⟨-, hr⟩ | ⟨y, hty, -, ⟨-, -, hr⟩ | ⟨-, ⟨hr, -⟩ | ⟨f, hka, -⟩⟩⟩
    any_goals rw [hr]
    rw [hy] at hty
    cases hty
    exact absurd hka hk
  refine ⟨_, resultOf_formResult ((Entry.due_iff _).1 hdue).2, fun ho hf => ?_, fun ho hf => ?_, fun ho => ?_⟩
  all_goals rw [hexec, hraises]
  · rw [settleWith_takeResult_placed [] hquiet hy hdue hk ho he ((hslot _).trans hf), raiseAll_nil, ht, place_setEntry,
      deliver_setEntry, deliver_eq (by rw [ht] at he; simpa using he), hgone]
    rfl
  · rw [settleWith_takeResult_done [] hquiet hy hdue hk ho ((hslot _).trans hf), raiseAll_nil, ht, doneAppended,
      State.setEntry_setEntry]
    rfl
  · rw [settleWith_takeResult_orphaned [] hquiet hy hdue hk ho, raiseAll_nil, ht, deliver_setEntry,
      deliver_eq (by rw [ht] at he; simpa using he), hgone]
    rfl

/-- Settles O18: the entry is due, and its result is applied to the window before the charge ends. -/
theorem lastAnswerAppliesAbsorbedWrite : Obligations.LastAnswerAppliesAbsorbedWrite := by
  intro p a s x g h hlaw hdone hl hd hanswers hk hw hres
  obtain ⟨t, ht, hquiet, hy, hdue, htimed, he, hexec⟩ := exec_lastAnswer h hlaw hdone hl hd hanswers hres
  have hgone : (resolvedBy x g a).withResult.delivered = none := Entry.delivered_of_not_timedOut htimed
  have he' : tagEntry a.tag ∉ s.doneOrder := by rw [ht] at he; simpa using he
  refine ⟨_, resultOf_formResult ((Entry.due_iff _).1 hdue).2, fun hr => ?_, fun f hr => ?_⟩
  · rw [hexec, takeResult_absorbed_ok hy hdue hk hr, settleWith_of_quiet _ _ (quiet_deliver hquiet _ _), raiseAll_nil, ht,
      deliver_setEntry, deliver_eq he', hgone]
    rfl
  · have hwindow : t.window x.dir x.window = s.window x.dir x.window := by rw [ht]; simp
    rw [hexec, takeResult_absorbed_faulted hy hdue hk hr (by rw [← hwindow] at hw; exact hw)]
    dsimp only
    rw [settleWith_of_quiet _ _ (quiet_deliver (quiet_setWindow hquiet _ _ _) _ _), ht, State.setWindow_setEntry, deliver_setEntry,
      deliver_eq (by simpa using he'), hgone]
    simp only [State.window_setEntry]
    rfl

end Sys2Proof.Machine
end

section
/-! The expiries of the request table: completion deadlines and quarantines (04 4.6). -/

namespace Sys2Proof.Machine

open Sys2Proof.Safety

/-! ## The struck entry and its withdrawn packets (R86, R87, R121) -/

/-- The struck entry, in the words of the statements. -/
theorem struck_eq_timedOutEntry (s : State) (x : Entry) (d : Deadline) : x.struck (quarTicks s x d) = timedOutEntry s x d := by
  have hsegments : ∀ g : Segment, ({ g with state := failOpen .timeout g.state } : Segment) =
      if g.state = .notSent ∨ g.state = .sent then { g with state := .failed .timeout } else g := by
    rintro ⟨a, b, st⟩
    cases st <;> rfl
  have hticks : quarTicks s x d = if s.tcto x.dir = .off then d.setting.ticks else (s.tcto x.dir).ticks := by
    unfold quarTicks
    cases s.tcto x.dir <;> rfl
  simp only [Entry.struck, Entry.mapStates, timedOutEntry, hsegments, hticks]

/-- The withdrawal, in the words of the statements. -/
theorem setPort_withdraw_eq (e : Fin 64) (x : Entry) (s : State) :
    s.setPort (forwardPort x.dir) ((s.port (forwardPort x.dir)).withdraw e) = withdrawn e x s := by
  simp only [PortState.withdraw, withdrawn, List.isEmpty_iff] <;> rfl

theorem struckState_eq (e : Fin 64) (x : Entry) (d : Deadline) (s : State) :
    struckState e x d s = (withdrawn e x s).setEntry e (some (timedOutEntry s x d)) := by
  rw [struckState, setPort_withdraw_eq, struck_eq_timedOutEntry]

theorem withdrawn_port_origin (e : Fin 64) (x : Entry) (s : State) :
    (withdrawn e x s).port (originPort x.dir) = s.port (originPort x.dir) :=
  State.port_setPort_ne _ _ _ _ (by cases x.dir <;> decide)

theorem quiet_withdrawn {s : State} (h : Quiet s) (e : Fin 64) (x : Entry) : Quiet (withdrawn e x s) :=
  quiet_setPort h Iff.rfl rfl rfl

/-- A lawful entry with a deadline has a segment that times out (R86). -/
theorem exists_timedOut_segment {s : State} {x : Entry} {d : Deadline} (h : LawfulEntry x) (hd : x.deadline ≠ none) :
    ∃ g ∈ (timedOutEntry s x d).segments, g.state = .failed .timeout := by
  have hopen : ∃ g ∈ x.segments, g.state = .notSent ∨ g.state = .sent := by
    rcases h.open_of_deadline hd with hs | hs
    · obtain ⟨g, hg, hn⟩ := (x.unsent_iff).1 (h.1 hs)
      exact ⟨g, hg, .inl hn⟩
    · by_contra hno
      obtain ⟨-, hwaits⟩ := h.2.1 hs
      have hres : x.resolved = true := (resolved_iff_resolved x).2 fun g hg =>
        ⟨fun hn => hno ⟨g, hg, .inl hn⟩, fun hn => hno ⟨g, hg, .inr hn⟩⟩
      rw [hres] at hwaits
      cases hwaits
  obtain ⟨g, hg, hs⟩ := hopen
  exact ⟨{ g with state := .failed .timeout }, List.mem_map.2 ⟨g, hg, if_pos hs⟩, rfl⟩

/-- The state in which the deadline's entry takes its result. -/
theorem timedOutEntry_due {s : State} {x : Entry} {d : Deadline} (h : x.state = .pending ∨ x.state = .issued) :
    (timedOutEntry s x d).due = true := by
  rw [← struck_eq_timedOutEntry]
  exact Entry.struck_due h _

/-! ## The expiry's event -/

/-- A READ's or CONFIRMED write's timeout raises its own notice alone (R86). -/
theorem exec_completionDeadlineExpiry_answered {e : Fin 64} {s : State} {x : Entry} {d : Deadline} (hx : s.entry e = some x)
    (hd : x.deadline = some d) (hr : (takeResult e (struckState e x d s)).2 = []) :
    exec (.completionDeadlineExpiry e) s =
      .next (settleWith [timeoutNotice x] (takeResult e (struckState e x d s)).1) := by
  refine congrArg Host.Outcome.next ?_
  rw [expireDeadline_eq hx hd, hr, if_pos rfl, freeMerge_nil_right]
  rfl

theorem takeResult_raises_of_answered {e : Fin 64} {s : State} {y : Entry} (hy : s.entry e = some y) (hk : y.kind ≠ .absorbed) :
    (takeResult e s).2 = [] := by
  rcases takeResult_cases e s with ⟨-, hr⟩ | ⟨z, hz, -, ⟨-, -, hr⟩ | ⟨-, ⟨hr, -⟩ | ⟨f, hka, -⟩⟩⟩
  any_goals rw [hr]
  rw [hy] at hz
  cases hz
  exact absurd hka hk

/-- Raises go with a charge released and an entry replaced. -/
theorem raiseAll_released_setEntry (es : List Raise) (t : Dir) (w : Fin 16) (s : State) (e : Fin 64) (z : Option Entry) :
    raiseAll es ((released t w s).setEntry e z) = (released t w (raiseAll es s)).setEntry e z :=
  raiseAll_comm (f := fun u => (released t w u).setEntry e z) (by cases t <;> intros <;> rfl) (by cases t <;> intros <;> rfl)
    (by cases t <;> intros <;> rfl) es s

theorem doneAppended_setEntry (e : Fin 64) (z : Entry) (s : State) (y : Option Entry) :
    doneAppended e z (s.setEntry e y) = doneAppended e z s := by
  rw [doneAppended, State.setEntry_setEntry, State.setEntry_doneOrder, doneAppended]

theorem State.drawn_one_eq {s : State} {n : Nat} (h : s.freeNext = n) : s.drawn 1 = { s with freeNext := n + 1 } := by
  rw [State.drawn, h]

theorem raiseAll_doneAppended (es : List Raise) (e : Fin 64) (z : Entry) (s : State) :
    raiseAll es (doneAppended e z s) = doneAppended e z (raiseAll es s) :=
  raiseAll_comm (f := doneAppended e z) (by intros; rfl) (by intros; rfl) (by intros; rfl) es s

/-- A QUARANTINED entry made FREE, or an entry with nothing to free: no claim comes up (R87). -/
theorem quiet_setEntry_none {s : State} (h : Quiet s) (e : Fin 64) : Quiet (s.setEntry e none) := by
  refine quiet_of_claims h (fun p => by simp [slotFree]) (fun p => by simp) (fun p k _ => by simp [NoLockClaim]) fun p i hc hi => ?_
  obtain ⟨y, hy, hs, hp⟩ := (doneClaims_iff p _ i).1 hc
  rw [State.entry_setEntry] at hy
  split at hy
  · cases hy
  · exact ⟨(doneClaims_iff p s i).2 ⟨y, hy, hs, hp⟩, hi⟩

/-- Settles O32: the struck entry is due; its result is delivered, or waits in the done order, behind the timeout's raise. -/
theorem deadlineExpiryQuarantines : Obligations.DeadlineExpiryQuarantines := by
  refine ⟨fun e x d s h hlaw hdone hx hd => ?expiry, fun e s h hno => ?noDeadline, fun e x s h hx hs hq => ?quarantine,
    fun e s h hno => ?noQuarantine⟩
  case expiry =>
    have hlawful : LawfulEntry x := hlaw e x hx
    have hsome : x.deadline ≠ none := by simp [hd]
    have hopen := hlawful.open_of_deadline hsome
    have hdue : (timedOutEntry s x d).due = true := timedOutEntry_due hopen
    obtain ⟨g, hg, hgs⟩ := exists_timedOut_segment (s := s) (d := d) hlawful hsome
    obtain ⟨f, hf⟩ := formResult_failed hg hgs
    have hresult := resultOf_formResult ((Entry.due_iff _).1 hdue).2
    have htimed : (timedOutEntry s x d).timedOut = true := (Entry.timedOut_iff _).2 ⟨g, hg, hgs⟩
    have hquarantined : (timedOutEntry s x d).withResult.delivered = some { timedOutEntry s x d with
        state := .quarantined, result := some (.failed f), deadline := none, buffer := []
        quarantine := (timedOutEntry s x d).tQuar } := by
      rw [Entry.delivered, Entry.withResult_timedOut, if_pos htimed, Entry.withResult, hf]
    have hquiet : Quiet (struckState e x d s) := by
      rw [struckState_eq]
      refine quiet_setEntry (quiet_withdrawn h e x) ?_
      show x.state ≠ .done
      rcases hopen with ho | ho <;> simp [ho]
    have hentry : (struckState e x d s).entry e = some (timedOutEntry s x d) := by
      rw [struckState_eq, State.entry_setEntry_self]
    have hnot : e ∉ s.doneOrder := not_mem_doneOrder_of_open hdone hx hopen
    have horder : (withdrawn e x s).doneOrder = s.doneOrder := State.setPort_doneOrder _ _ _
    have hnot' : e ∉ (struckState e x d s).doneOrder := by rwa [struckState_eq, State.setEntry_doneOrder, horder]
    have hslot : slotFree (originPort x.dir) (struckState e x d s) = slotFree (originPort x.dir) s := by
      simp only [slotFree, struckState_eq, State.port_setEntry, withdrawn_port_origin]
    have hanswered : x.kind ≠ .absorbed → exec (.completionDeadlineExpiry e) s =
        .next (settleWith [timeoutNotice x] (takeResult e (struckState e x d s)).1) := fun hk =>
      exec_completionDeadlineExpiry_answered hx hd (takeResult_raises_of_answered hentry hk)
    refine ⟨f, hf ▸ hresult, fun hk ho hfree => ?_, fun hk ho hfull => ?_, fun hk ho => ?_, fun hk hw => ?_⟩
    · rw [hanswered hk, settleWith_takeResult_placed _ hquiet hentry hdue hk ho hnot' (hslot.trans hfree), struckState_eq,
        place_setEntry, deliver_setEntry, deliver_eq (by rwa [place_doneOrder, horder]), hquarantined, raiseAll_released_setEntry,
        hf, place, raiseAll_setPort]
      show Host.Outcome.next ((released x.dir x.window ((timeoutStruck e x s).setPort (originPort x.dir)
        { (withdrawn e x s).port (originPort x.dir) with
          completions := ((withdrawn e x s).port (originPort x.dir)).completions ++
            [resultCompletion (timedOutEntry s x d) (.failed f)] })).setEntry e _) = _
      rw [withdrawn_port_origin]
    · rw [hanswered hk, settleWith_takeResult_done _ hquiet hentry hdue hk ho (hslot.trans hfull), struckState_eq,
        doneAppended_setEntry, raiseAll_doneAppended, doneAppended, raiseAll_doneOrder, horder, Entry.withResult, hf]
      rfl
    · rw [hanswered hk, settleWith_takeResult_orphaned _ hquiet hentry hdue hk ho, struckState_eq, deliver_setEntry,
        deliver_eq (by rwa [horder]), hquarantined, raiseAll_released_setEntry]
      rfl
    · have hwindow : (struckState e x d s).window x.dir x.window = s.window x.dir x.window := by
        rw [struckState_eq]
        simp [withdrawn]
      refine ⟨freeMerge s.freeNext [timeoutNotice x] [absorbedRaise (timedOutEntry s x d) f.status], ?_, ?_⟩
      · refine (freeMerge_perm _ _ _).trans ?_
        have hraise : writeFailed x (timedOutEntry s x d).segments = [absorbedRaise (timedOutEntry s x d) f.status] := by
          have hform : ({ x with segments := (timedOutEntry s x d).segments } : Entry).formResult = .failed f := hf
          rw [writeFailed, hform]
          rfl
        rw [hraise]
        exact List.Perm.refl _
      · have htake := takeResult_absorbed_faulted hentry hdue hk hf (by rw [← hwindow] at hw; exact hw)
        refine congrArg Host.Outcome.next ?_
        rw [expireDeadline_eq hx hd, htake]
        dsimp only
        rw [if_neg (by simp), settleWith_of_atRest _ _ (Alike.atRest (alike_drawn _ 1)
          (quiet_atRest _ (quiet_deliver (quiet_setWindow hquiet _ _ _) _ _)))]
        refine congrArg (raiseAll _) ?_
        have hwindow' : (struckState e x d s).window (timedOutEntry s x d).dir (timedOutEntry s x d).window =
          s.window x.dir x.window := hwindow
        rw [hwindow', struckState_eq, State.setWindow_setEntry, deliver_setEntry,
          deliver_eq (by rwa [State.setWindow_doneOrder, horder]), hquarantined]
        exact State.drawn_one_eq (by simp [released, withdrawn])
  case noDeadline =>
    refine congrArg Host.Outcome.next ?_
    rw [expireDeadline_of_none hno]
    exact settleWith_of_atRest [] s h
  case quarantine =>
    have hexpire : expireQuarantine e s = s.setEntry e none := by
      simp only [expireQuarantine, hx]
      exact if_pos ⟨hs, Option.ne_none_iff_isSome.1 hq⟩
    refine congrArg Host.Outcome.next ?_
    rw [hexpire]
    exact settle_of_quiet _ (quiet_setEntry_none h e)
  case noQuarantine =>
    have hexpire : expireQuarantine e s = s := by
      unfold expireQuarantine
      split
      · rfl
      · next x hx => exact if_neg fun hq => hno x hx hq.1
    refine congrArg Host.Outcome.next ?_
    rw [hexpire]
    exact settleWith_of_atRest [] s h

end Sys2Proof.Machine
end

section
/-! What several results, deliveries and placings make of entries, windows and raises: shared by the stall and the link loss (04 4.8). -/

namespace Sys2Proof.Machine

open Sys2Proof.Safety

/-! ## Slots given out, entry by entry (R90, R104) -/

/-- A placing frees no slot. -/
theorem slotFree_of_placeClaim {p q : Port} {a : Claim} {s : State} (h : nextClaim p s = some a)
    (hf : slotFree q (placeClaim p a s) = true) : slotFree q s = true := by
  obtain ⟨r, hr⟩ := placeClaim_port_of_stands (nextClaim_stands h)
  rw [slotFree_iff] at hf ⊢
  rw [hr] at hf
  split at hf
  · next hq =>
    subst hq
    obtain ⟨hl, hlen⟩ := hf
    rw [List.length_append, List.length_singleton] at hlen
    exact ⟨hl, by omega⟩
  · exact hf

/-- A placing leaves an entry, or delivers it from the done order (R90). -/
theorem placeClaim_entry {p : Port} {a : Claim} {s : State} (h : nextClaim p s = some a) (i : Fin 64) :
    (placeClaim p a s).entry i = s.entry i ∨
      ∃ x, a = .done i ∧ s.entry i = some x ∧ x.state = .done ∧ originPort x.dir = p ∧ (placeClaim p a s).entry i = x.delivered := by
  cases a with
  | outbox k => exact .inl (placeOutbox_entry k s i)
  | expired k => exact .inl (placeExpired_entry k p s i)
  | done e =>
    obtain ⟨-, x, hx, hs, hp⟩ := nextClaim_stands h
    have hplaced : (placeClaim p (.done e) s).entry i = if i = e then x.delivered else s.entry i := by
      simp [placeClaim, deliverDone, hx, deliver_entry_eq]
    by_cases hi : i = e
    · subst hi
      exact .inr ⟨x, rfl, hx, hs, hp, by rw [hplaced, if_pos rfl]⟩
    · exact .inl (by rw [hplaced, if_neg hi])

theorem Entry.delivered_state_ne_done {x y : Entry} (h : x.delivered = some y) : y.state ≠ .done := by
  unfold Entry.delivered at h
  split at h
  · cases h; simp
  · cases h

/-- Giving out slots leaves an entry, or delivers a DONE one whose origin port has a free slot (R90). -/
theorem giveOut_entry (fuel : Nat) (s : State) (i : Fin 64) :
    (giveOut fuel s).entry i = s.entry i ∨
      ∃ x, s.entry i = some x ∧ x.state = .done ∧ slotFree (originPort x.dir) s = true ∧ (giveOut fuel s).entry i = x.delivered := by
  have hkey := giveOut_induction (P := fun t => (∀ p, slotFree p t = true → slotFree p s = true) ∧
    (t.entry i = s.entry i ∨ ∃ x, s.entry i = some x ∧ x.state = .done ∧ slotFree (originPort x.dir) s = true ∧
      t.entry i = x.delivered)) (fun p a t ha ht => ?_) fuel s ⟨fun _ => id, .inl rfl⟩
  · exact hkey.2
  obtain ⟨hslots, hentry⟩ := ht
  refine ⟨fun q hq => hslots q (slotFree_of_placeClaim ha hq), ?_⟩
  rcases placeClaim_entry ha i with hsame | ⟨x, -, hx, hs, rfl, hdel⟩
  · rw [hsame]
    exact hentry
  · have hfree := hslots _ (slotFree_of_nextClaim ha)
    rcases hentry with hsame | ⟨y, -, -, -, hdone⟩
    · exact .inr ⟨x, by rw [← hsame, hx], hs, hfree, hdel⟩
    · rw [hx] at hdone
      exact absurd hs (Entry.delivered_state_ne_done hdone.symm)

/-- An entry that is not DONE stays while slots are given out. -/
theorem giveOut_entry_of_not_done {fuel : Nat} {s : State} {i : Fin 64} (h : ∀ x, s.entry i = some x → x.state ≠ .done) :
    (giveOut fuel s).entry i = s.entry i := by
  rcases giveOut_entry fuel s i with hsame | ⟨x, hx, hs, -⟩
  · exact hsame
  · exact absurd hs (h x hx)

/-! ## Windows under releases and failures (R37, R40, R43) -/

/-- A relation of windows that releases respect. -/
structure ReleaseRel (R : Window → Window → Prop) : Prop where
  refl : ∀ w, R w w
  trans : ∀ w v x, R w v → R v x → R w x
  release : ∀ w, R w w.release

namespace ReleaseRel

variable {R : Window → Window → Prop} (hR : ReleaseRel R)
include hR

theorem of_eq {w v : Window} (h : v = w) : R w v := h ▸ hR.refl w

theorem deliver (e : Fin 64) (x : Entry) (s : State) (d : Dir) (w : Fin 16) :
    R (s.window d w) ((deliver e x s).window d w) := by
  rw [deliver_window, releaseWindow, State.window_setWindow]
  split
  · next hdw =>
    obtain ⟨rfl, rfl⟩ := hdw
    exact hR.release _
  · exact hR.refl _

theorem placeClaim (p : Port) (a : Claim) (s : State) (d : Dir) (w : Fin 16) :
    R (s.window d w) ((placeClaim p a s).window d w) := by
  cases a with
  | outbox k => exact hR.of_eq (placeOutbox_window k s d w)
  | expired k =>
    simp only [Machine.placeClaim, placeExpired]
    split
    · exact hR.refl _
    · exact hR.of_eq (by simp)
  | done e =>
    simp only [Machine.placeClaim, deliverDone]
    split
    · exact hR.refl _
    · exact hR.trans _ _ _ (hR.of_eq (by simp)) (hR.deliver e _ (place _ _ s) d w)

theorem giveOut (fuel : Nat) (s : State) (d : Dir) (w : Fin 16) : R (s.window d w) ((giveOut fuel s).window d w) :=
  giveOut_induction (P := fun t => R (s.window d w) (t.window d w))
    (fun p a t _ ht => hR.trans _ _ _ ht (hR.placeClaim p a t d w)) fuel s (hR.refl _)

theorem deliverOrphans (es : List (Fin 64)) (s : State) (d : Dir) (w : Fin 16) :
    R (s.window d w) ((deliverOrphans es s).window d w) := by
  induction es generalizing s with
  | nil => exact hR.refl _
  | cons e es ih =>
    rw [Machine.deliverOrphans, List.foldl_cons, ← Machine.deliverOrphans]
    refine hR.trans _ _ _ ?_ (ih _)
    split
    · exact hR.deliver e _ s d w
    · exact hR.refl _

/-- From the forward port's results on, a link loss only releases (R96). -/
theorem linkLossState (p : Port) (s : State) (d : Dir) (w : Fin 16) :
    R ((forwardLinkLoss s.freeNext p
      (countFlushed (noticesOf (s.port p).egress) (s.setPort p (s.port p).linkLost))).1.window d w)
      ((linkLossState p s).window d w) := by
  rw [Machine.linkLossState, State.window_drawn, locksLinkLoss_window, originLinkLoss_eq]
  exact hR.trans _ _ _ (hR.of_eq (by rw [mapEntries_window])) (hR.deliverOrphans _ _ d w)

/-- A result releases its window, after a failure of an absorbed write (R40, R91). -/
theorem takeResult (hfail : ∀ w f, R w (w.applyFailure f)) (e : Fin 64) (s : State) (d : Dir) (w : Fin 16) :
    R (s.window d w) ((takeResult e s).1.window d w) := by
  rcases takeResult_cases e s with ⟨-, hr⟩ | ⟨x, -, -, ⟨-, -, hr⟩ | ⟨-, ⟨hr, -⟩ | ⟨f, -, -, hr⟩⟩⟩ <;> rw [hr]
  · exact hR.refl _
  · exact hR.of_eq (by rw [State.window_doneOrder, State.window_setEntry])
  · exact hR.deliver e _ s d w
  · refine hR.trans _ _ _ ?_ (hR.deliver e _ _ d w)
    simp only [applyFailure, State.window_setWindow]
    split
    · next hdw =>
      obtain ⟨rfl, rfl⟩ := hdw
      exact hfail _ _
    · exact hR.refl _

theorem takeResults (hfail : ∀ w f, R w (w.applyFailure f)) (es : List (Fin 64)) (s : State) (d : Dir) (w : Fin 16) :
    R (s.window d w) ((takeResults es s).1.window d w) := by
  rw [takeResults_fst]
  induction es generalizing s with
  | nil => exact hR.refl _
  | cons e es ih => exact hR.trans _ _ _ (hR.takeResult hfail e s d w) (ih _)

end ReleaseRel

/-- A window changed in state, charge and record at most: its configuration and its hits stand (R47). -/
def Window.SameSettings (w v : Window) : Prop := v = { w with state := v.state, inFlight := v.inFlight, fault := v.fault }

theorem sameSettings_releaseRel : ReleaseRel Window.SameSettings where
  refl _ := rfl
  trans w v x h k := by
    rw [Window.SameSettings] at *
    rw [h] at k
    exact k
  release _ := rfl

theorem Window.SameSettings.applyFailure (w : Window) (f : FaultRecord) : w.SameSettings (w.applyFailure f) := by
  unfold Window.SameSettings Window.applyFailure
  split
  · rfl
  · rfl
  all_goals split <;> rfl

/-- What releases leave of a window: its record always, and its state outside a drain (R37). -/
def Window.Eased (w v : Window) : Prop := v.fault = w.fault ∧ (w.state ≠ .draining → v.state = w.state)

theorem eased_releaseRel : ReleaseRel Window.Eased where
  refl _ := ⟨rfl, fun _ => rfl⟩
  trans w v x h k := by
    obtain ⟨hf, hs⟩ := h
    obtain ⟨kf, ks⟩ := k
    exact ⟨kf.trans hf, fun hw => by rw [ks (by rwa [hs hw]), hs hw]⟩
  release w := ⟨rfl, fun hw => by simp [Window.release, hw]⟩

/-- A FAULTED window with its record (R41). -/
def Window.Faulty (w : Window) : Prop := w.state = .faulted ∧ w.fault.isSome = true

theorem Window.Faulty.eased {w v : Window} (h : w.Faulty) (hv : w.Eased v) : v.Faulty := by
  obtain ⟨hs, hf⟩ := h
  obtain ⟨hvf, hvs⟩ := hv
  exact ⟨by rw [hvs (by simp [hs]), hs], by rwa [hvf]⟩

theorem Window.Faulty.applyFailure {w : Window} (h : w.state = .active ∨ w.Faulty) (f : FaultRecord) :
    (w.applyFailure f).Faulty := by
  unfold Window.applyFailure
  rcases h with h | ⟨h, hf⟩
  · simp [h, Window.Faulty]
  · obtain ⟨g, hg⟩ := Option.isSome_iff_exists.1 hf
    simp [h, hg, Window.Faulty]

theorem Window.release_active_or_faulty {w : Window} (h : w.state = .active ∨ w.Faulty) :
    w.release.state = .active ∨ w.release.Faulty := by
  rcases h with h | h
  · exact .inl (by simp [Window.release, h])
  · exact .inr (h.eased (eased_releaseRel.release w))

/-! ## Results at one window (R40, R91) -/

/-- The window after entry `e` takes its result. -/
theorem takeResult_window {e : Fin 64} {s : State} {x : Entry} (hx : s.entry e = some x) (d : Dir) (w : Fin 16) :
    (takeResult e s).1.window d w = s.window d w ∨
      d = x.dir ∧ w = x.window ∧ x.due = true ∧
        ((takeResult e s).1.window d w = (s.window d w).release ∧ (x.kind = .absorbed → x.formResult = .ok) ∨
          ∃ f, x.kind = .absorbed ∧ x.formResult = .failed f ∧
            (takeResult e s).1.window d w = ((s.window d w).applyFailure
              { address := x.address, node := x.node, status := f.status, later := 0 }).release) := by
  rcases takeResult_cases e s with ⟨-, hr⟩ | ⟨y, hy, hdue, hcase⟩
  · rw [hr]
    exact .inl rfl
  rw [hx] at hy
  cases hy
  rcases hcase with ⟨-, -, hr⟩ | ⟨-, ⟨hr, hok⟩ | ⟨f, hk, hf, hr⟩⟩ <;> rw [hr]
  · exact .inl (by rw [State.window_doneOrder, State.window_setEntry])
  · rw [deliver_window, releaseWindow, State.window_setWindow]
    split
    · next hdw =>
      obtain ⟨rfl, rfl⟩ := hdw
      exact .inr ⟨rfl, rfl, hdue, .inl ⟨rfl, hok⟩⟩
    · exact .inl rfl
  · rw [deliver_window, releaseWindow, State.window_setWindow, Entry.withResult_dir, Entry.withResult_window]
    by_cases hdw : d = x.dir ∧ w = x.window
    · rw [if_pos hdw]
      obtain ⟨rfl, rfl⟩ := hdw
      exact .inr ⟨rfl, rfl, hdue, .inr ⟨f, hk, hf, by simp [applyFailure]⟩⟩
    · rw [if_neg hdw]
      simp only [applyFailure, State.window_setWindow]
      exact .inl (if_neg hdw)

/-- A window that is ACTIVE, or FAULTED with a record, stays so under results; the failure of an absorbed write makes it FAULTED. -/
theorem takeResult_faulty {e : Fin 64} {s : State} {d : Dir} {w : Fin 16}
    (h : (s.window d w).state = .active ∨ (s.window d w).Faulty) :
    (((takeResult e s).1.window d w).state = .active ∨ ((takeResult e s).1.window d w).Faulty) ∧
      ((s.window d w).Faulty → ((takeResult e s).1.window d w).Faulty) ∧
      ∀ x f, s.entry e = some x → x.due = true → x.kind = .absorbed → x.formResult = .failed f → x.dir = d → x.window = w →
        ((takeResult e s).1.window d w).Faulty := by
  cases hx : s.entry e with
  | none =>
    rw [takeResult_of_not_due e s (by simp [hx])]
    exact ⟨h, id, by simp⟩
  | some x =>
    have hfailed : ∀ g, ((s.window d w).applyFailure g).release.Faulty := fun g =>
      (Window.Faulty.applyFailure h g).eased (eased_releaseRel.release _)
    have hwindow := takeResult_window hx d w
    refine ⟨?_, ?_, ?_⟩
    · rcases hwindow with hw | ⟨-, -, -, ⟨hw, -⟩ | ⟨f, -, -, hw⟩⟩ <;> rw [hw]
      · exact h
      · exact Window.release_active_or_faulty h
      · exact .inr (hfailed _)
    · intro hf
      rcases hwindow with hw | ⟨-, -, -, ⟨hw, -⟩ | ⟨f, -, -, hw⟩⟩ <;> rw [hw]
      · exact hf
      · exact hf.eased (eased_releaseRel.release _)
      · exact hfailed _
    · intro y f hy hdue hk hf hd hw
      cases hy
      rw [takeResult_absorbed_failed hx hdue hk hf, deliver_window, releaseWindow, State.window_setWindow, if_pos ⟨hd.symm, hw.symm⟩]
      simp only [applyFailure, Entry.withResult_dir, Entry.withResult_window, State.window_setWindow_self, hd, hw]
      exact hfailed _

/-- Several results: the window of an absorbed write that fails among them ends FAULTED (R40). -/
theorem takeResults_faulty {es : List (Fin 64)} {s : State} {d : Dir} {w : Fin 16}
    (h : (s.window d w).state = .active ∨ (s.window d w).Faulty)
    (he : (s.window d w).Faulty ∨ ∃ e ∈ es, ∃ x f, s.entry e = some x ∧ x.due = true ∧ x.kind = .absorbed ∧
      x.formResult = .failed f ∧ x.dir = d ∧ x.window = w) :
    ((takeResults es s).1.window d w).Faulty := by
  rw [takeResults_fst]
  induction es generalizing s with
  | nil => exact he.resolve_right (by simp)
  | cons i es ih =>
    obtain ⟨hstays, hfaulty, hfails⟩ := takeResult_faulty (e := i) h
    refine ih hstays ?_
    rcases he with hf | ⟨e, hmem, x, f, hx, hdue, hk, hres, hd, hw⟩
    · exact .inl (hfaulty hf)
    · by_cases hi : e = i
      · subst hi
        exact .inl (hfails x f hx hdue hk hres hd hw)
      · exact .inr ⟨e, (List.mem_cons.1 hmem).resolve_left hi, x, f, by rw [takeResult_entry, if_neg hi, hx], hdue, hk, hres, hd, hw⟩

/-- No absorbed write of a window fails when the entries of a list take their results. -/
def NoFailure (s : State) (d : Dir) (w : Fin 16) (e : Fin 64) : Prop :=
  ∀ x f, s.entry e = some x → x.due = true → x.kind = .absorbed → x.dir = d → x.window = w → x.formResult ≠ .failed f

/-- Results without a failure at a window only release it. -/
theorem takeResults_eased {es : List (Fin 64)} {s : State} {d : Dir} {w : Fin 16} (hn : es.Nodup)
    (h : ∀ e ∈ es, NoFailure s d w e) : (s.window d w).Eased ((takeResults es s).1.window d w) := by
  rw [takeResults_fst]
  induction es generalizing s with
  | nil => exact eased_releaseRel.refl _
  | cons i es ih =>
    obtain ⟨hi, hes⟩ := List.nodup_cons.1 hn
    have hfirst : (s.window d w).Eased ((takeResult i s).1.window d w) := by
      cases hx : s.entry i with
      | none =>
        rw [takeResult_of_not_due i s (by simp [hx])]
        exact eased_releaseRel.refl _
      | some x =>
        rcases takeResult_window hx d w with hw | ⟨hd, hww, hdue, ⟨hw, -⟩ | ⟨f, hk, hf, -⟩⟩
        · exact eased_releaseRel.of_eq hw
        · rw [hw]
          exact eased_releaseRel.release _
        · exact absurd hf (h i List.mem_cons_self x f hx hdue hk hd.symm hww.symm)
    refine eased_releaseRel.trans _ _ _ hfirst (ih hes fun e he x f hx => ?_)
    rw [takeResult_entry, if_neg (fun hei => hi (by rwa [hei] at he))] at hx
    exact h e (List.mem_cons_of_mem _ he) x f hx

/-! ## Raises of several results (R40, R161) -/

/-- What an entry raises at its window when it takes its result (R40). -/
def Entry.resultRaises (x : Entry) : List Raise := if x.due ∧ x.kind = .absorbed then writeFailed x x.segments else []

/-- What the entry at a place raises so. -/
def resultRaisesAt (s : State) (e : Fin 64) : List Raise := (s.entry e).elim [] Entry.resultRaises

theorem resultRaisesAt_of_some {s : State} {e : Fin 64} {x : Entry} (hx : s.entry e = some x) :
    resultRaisesAt s e = x.resultRaises := by
  rw [resultRaisesAt, hx, Option.elim_some]

/-- A window that an entry is charged to is not DISABLED (R43). -/
theorem window_not_disabled {s : State} {e : Fin 64} {x : Entry} (h : ChargeLaw s) (hx : s.entry e = some x)
    (hs : x.state ≠ .quarantined) : (s.window x.dir x.window).state ≠ .disabled := by
  intro hoff
  obtain ⟨hcount, hzero⟩ := h x.dir x.window
  rw [hzero hoff, countEntries_eq] at hcount
  have hnone := List.countP_eq_zero.1 hcount.symm e (List.mem_finRange e)
  rw [hx] at hnone
  exact hnone ((chargedTo_some x.dir x.window x).2 ⟨⟨rfl, rfl⟩, hs⟩)

theorem takeResult_raises {s : State} (h : ChargeLaw s) (e : Fin 64) : (takeResult e s).2 = resultRaisesAt s e := by
  rcases takeResult_cases e s with ⟨hno, hr⟩ | ⟨x, hx, hdue, hcase⟩
  · rw [hr]
    cases hx : s.entry e with
    | none => simp [resultRaisesAt, hx]
    | some x => simp [resultRaisesAt_of_some hx, Entry.resultRaises, hno x hx]
  rw [resultRaisesAt_of_some hx, Entry.resultRaises]
  rcases hcase with ⟨hk, -, hr⟩ | ⟨-, ⟨hr, hok⟩ | ⟨f, hk, hf, hr⟩⟩ <;> rw [hr]
  · rw [if_neg (fun hc => hk hc.2)]
  · split
    · next hc =>
      have hform : ({ x with segments := x.segments } : Entry).formResult = .ok := hok hc.2
      rw [writeFailed, hform]
    · rfl
  · have hform : ({ x with segments := x.segments } : Entry).formResult = .failed f := hf
    have hnq : x.state ≠ .quarantined := by rcases (x.due_iff.1 hdue).1 with hs | hs <;> simp [hs]
    rw [if_pos ⟨hdue, hk⟩, writeFailed, hform, applyFailure_eq (window_not_disabled h hx hnq)]
    rfl

theorem takeResults_cons (e : Fin 64) (es : List (Fin 64)) (s : State) :
    (takeResults (e :: es) s).2 = (takeResult e s).2 ++ (takeResults es (takeResult e s).1).2 := by
  have h : ∀ (es : List (Fin 64)) (t : State) (l : List Raise),
      (es.foldl (fun a e => let b := takeResult e a.1; (b.1, a.2 ++ b.2)) (t, l)).2 = l ++ (takeResults es t).2 := by
    intro es
    induction es with
    | nil => intro t l; simp [takeResults]
    | cons i es ih =>
      intro t l
      have hone : (takeResults (i :: es) t).2 = [] ++ (takeResult i t).2 ++ (takeResults es (takeResult i t).1).2 := ih _ _
      rw [List.foldl_cons, ih, hone, List.nil_append, List.append_assoc]
  rw [takeResults, List.foldl_cons, h]
  simp

/-- The raises of several results are those of each, in their order. -/
theorem takeResults_raises {es : List (Fin 64)} {s : State} (hn : es.Nodup) (h : ChargeLaw s) :
    (takeResults es s).2 = es.flatMap (resultRaisesAt s) := by
  induction es generalizing s with
  | nil => rfl
  | cons e es ih =>
    obtain ⟨he, hes⟩ := List.nodup_cons.1 hn
    rw [takeResults_cons, ih hes (chargeLaw_takeResult h e), takeResult_raises h, List.flatMap_cons]
    refine congrArg _ (List.flatMap_congr fun i hi => ?_)
    rw [resultRaisesAt, takeResult_entry, if_neg (fun hie => he (by rwa [hie] at hi)), resultRaisesAt]

/-- What the entries of a list yield, in another order: the same over the whole table, where the others yield nothing. -/
theorem flatMap_perm_allEntries {α : Type} {es : List (Fin 64)} {f : Fin 64 → List α} (hn : es.Nodup)
    (h : ∀ e, e ∉ es → f e = []) : (es.flatMap f).Perm ((List.finRange 64).flatMap f) := by
  have hperm : es.Perm ((List.finRange 64).filter (fun e => decide (e ∈ es))) :=
    (List.perm_ext_iff_of_nodup hn ((List.nodup_finRange 64).filter _)).2 fun e => by simp
  have hall : ∀ l : List (Fin 64), (l.filter (fun e => decide (e ∈ es))).flatMap f = l.flatMap f := by
    intro l
    induction l with
    | nil => rfl
    | cons e l ih =>
      by_cases he : e ∈ es
      · rw [List.filter_cons_of_pos (by simpa using he), List.flatMap_cons, List.flatMap_cons, ih]
      · rw [List.filter_cons_of_neg (by simpa using he), List.flatMap_cons, h e he, ih, List.nil_append]
  exact (hperm.flatMap_right f).trans (by rw [hall])

/-! ## Raises and counts of a flushed queue (R127, R132, R167) -/

theorem passRaises_eq (st : Status) (ks : List EgressPacket) : passRaises st ks = passLosses st ks := by
  induction ks with
  | nil => rfl
  | cons k ks ih =>
    rw [passRaises] at ih
    rw [passRaises, List.filterMap_cons, ih]
    cases k <;> rfl

theorem lost_zero {s : State} (h : NoticeLaw s) : lost s.notices 0 0 = s.notices := by
  obtain ⟨-, hsince, htotal, -⟩ := h
  have h1 : min (s.notices.droppedSince + 0) 65535 = s.notices.droppedSince := by omega
  have h2 : min (s.notices.droppedTotal + 0) (2 ^ 32 - 1) = s.notices.droppedTotal := by omega
  rw [lost, h1, h2]

/-- The flushed notices counted, in the words of the statements (R167). -/
theorem countFlushed_notices {s : State} (h : NoticeLaw s) (ks : List EgressPacket) :
    (countFlushed (noticesOf ks) s).notices = lost s.notices (flushedLosses ks) (noticeCount ks) := by
  rw [← flushedLosses_eq, ← noticeCount_eq]
  unfold countFlushed
  cases hn : noticesOf ks with
  | nil => exact (lost_zero h).symm
  | cons n ns => exact (foldl_dropped_cons n ns _).trans (NoticeUnit.dropped_eq_lost _ _ _)

end Sys2Proof.Machine
end

section
/-! A link loss: what it closes, what it raises, and what becomes of each entry (R11, R95, R96, R132, R153). -/

namespace Sys2Proof.Machine

open Sys2Proof.Safety

/-! ## The event -/

/-- The raises of a link loss as they are judged (R161). -/
def lossRaises (p : Port) (s : State) : List Raise :=
  freeMerge (s.freeNext + 2)
    (freeMerge (s.freeNext + 1) (flushLosses .linkDown .linkDown p (s.port p).egress)
      (forwardLinkLoss s.freeNext p (countFlushed (noticesOf (s.port p).egress) (s.setPort p (s.port p).linkLost))).2)
    (lockLosses p s)

theorem lockLinkRaises_eq (p : Port) (s : State) : lockLinkRaises p s = lockLosses p s := by
  unfold lockLinkRaises lockLosses
  refine List.filterMap_congr fun k _ => ?_
  cases (s.lock k).holder with
  | none => rfl
  | some h =>
    dsimp only
    split
    · next hp =>
      subst hp
      rfl
    · rfl

theorem exec_linkLoss {p : Port} {s : State} (hl : (s.port p).link ≠ .down) :
    exec (.linkLoss p) s = .next (settleWith (lossRaises p s) (linkLossState p s)) := by
  have hexec : exec (.linkLoss p) s = .next (settleWith
      (freeMerge (s.freeNext + 2)
        (freeMerge (s.freeNext + 1) (passRaises .linkDown (s.port p).egress ++ [portRaise .linkDown p])
          (forwardLinkLoss s.freeNext p (countFlushed (noticesOf (s.port p).egress) (s.setPort p (s.port p).linkLost))).2)
        (lockLinkRaises p s)) (linkLossState p s)) := if_neg hl
  rw [hexec, passRaises_eq, lockLinkRaises_eq]
  rfl

/-- The state in which a link loss ends where the other port's head does not wait. -/
theorem exec_linkLoss_of_heads {p : Port} {s : State} (hl : (s.port p).link ≠ .down) (hw : (s.port (otherPort p)).headWaits = false) :
    exec (.linkLoss p) s = .next (raiseAll (lossRaises p s) (giveOut 32 (linkLossState p s))) := by
  have hheads : ∀ q, ((linkLossState p s).port q).headWaits = false := by
    intro q
    rw [linkLossState_port]
    split
    · rfl
    · next hq =>
      have hqo : q = otherPort p := by revert hq; cases p <;> cases q <;> decide
      rw [hqo, hw]
  rw [exec_linkLoss hl, settleWith_of_heads _ _ (hheads .u) (hheads .d)]

/-! ## Slots given out at the other port -/

/-- Giving out slots adds completions to a port and changes nothing else of it. -/
theorem giveOut_port_completions (fuel : Nat) (s : State) (q : Port) :
    ∃ cs, (giveOut fuel s).port q = { s.port q with completions := (s.port q).completions ++ cs } := by
  refine giveOut_induction (P := fun t => ∃ cs, t.port q = { s.port q with completions := (s.port q).completions ++ cs })
    (fun p a t ha ht => ?_) fuel s ⟨[], by simp⟩
  obtain ⟨cs, hcs⟩ := ht
  obtain ⟨r, hr⟩ := placeClaim_port_of_stands (nextClaim_stands ha)
  rw [hr]
  split
  · next hq =>
    subst hq
    exact ⟨cs ++ [r], by simp [hcs]⟩
  · exact ⟨cs, hcs⟩

theorem giveOut_settingsKept (fuel : Nat) (s : State) : SettingsKept s (giveOut fuel s) :=
  giveOut_induction (P := SettingsKept s) (fun p a t _ ht => ht.trans (placeClaim_settingsKept p a t)) fuel s (.refl s)

/-! ## Locks without a claim at the lost port (R153, R154) -/

/-- Lock `x` has no holder, waiter, outbox grant or expiry answer at port `p`. -/
def Lock.ClearOf (p : Port) (x : Lock) : Prop :=
  (∀ n, x.holder ≠ some (n, p)) ∧ (∀ w ∈ x.waiters, w.port ≠ p) ∧ (∀ h, x.outbox = some h → h.port ≠ p) ∧
    ∀ h ∈ x.expired, h.port ≠ p

/-- A lock is clear of port `p`, with the settings of lock `x`. -/
def Lock.ClearedFrom (p : Port) (x y : Lock) : Prop := y.ClearOf p ∧ y.tLease = x.tLease ∧ y.tWait = x.tWait

namespace Lock.ClearedFrom

variable {p : Port} {x y : Lock}

theorem handOn (h : ClearedFrom p x y) : ClearedFrom p x y.handOn := by
  obtain ⟨⟨hh, hw, ho, he⟩, hl, ht⟩ := h
  unfold Lock.handOn
  split
  · next w ws _ _ hws =>
    have hport : w.port ≠ p := hw w (by rw [hws]; exact List.mem_cons_self)
    refine ⟨⟨fun n hn => ?_, fun v hv => hw v (by rw [hws]; exact List.mem_cons_of_mem _ hv), fun b hb => ?_, he⟩, hl, ht⟩
    · exact hport (by cases hn; rfl)
    · cases hb
      exact hport
  · exact ⟨⟨hh, hw, ho, he⟩, hl, ht⟩

theorem outboxPlaced (h : ClearedFrom p x y) (st : Status) : ClearedFrom p x (y.outboxPlaced st) := by
  obtain ⟨⟨hh, hw, -, he⟩, hl, ht⟩ := h
  unfold Lock.outboxPlaced
  split
  · exact ⟨⟨hh, hw, by simp, he⟩, hl, ht⟩
  · exact handOn ⟨⟨hh, hw, by simp, he⟩, hl, ht⟩

theorem erase (h : ClearedFrom p x y) (b : HeldAnswer) : ClearedFrom p x { y with expired := y.expired.erase b } := by
  obtain ⟨⟨hh, hw, ho, he⟩, hl, ht⟩ := h
  exact ⟨⟨hh, hw, ho, fun a ha => he a (List.mem_of_mem_erase ha)⟩, hl, ht⟩

/-- A link loss of the port clears the lock of it. -/
theorem linkLoss (p : Port) (x : Lock) : ClearedFrom p x (x.linkLoss p) := by
  have hw : ∀ w ∈ x.waiters.filter (fun w => decide (w.port ≠ p)), w.port ≠ p := by simp
  have he : ∀ h ∈ x.expired.filter (fun h => decide (h.port ≠ p)), h.port ≠ p := by simp
  have ho : ∀ h, x.outbox.filter (fun h => decide (h.port ≠ p)) = some h → h.port ≠ p := fun h hh => by
    simpa using (Option.filter_eq_some_iff.1 hh).2
  unfold Lock.linkLoss
  dsimp only
  split
  · next n q hh =>
    split
    · exact handOn ⟨⟨by simp, hw, ho, he⟩, rfl, rfl⟩
    · next hq => exact ⟨⟨fun m hm => hq (by rw [hh] at hm; cases hm; rfl), hw, ho, he⟩, rfl, rfl⟩
  · next hh => exact handOn ⟨⟨by simp [hh], hw, ho, he⟩, rfl, rfl⟩

end Lock.ClearedFrom

/-- A placing leaves a lock clear of a port. -/
theorem placeClaim_clearedFrom {p q : Port} {a : Claim} {s t : State} (h : ∀ k, (s.lock k).ClearedFrom p (t.lock k)) (k : Fin 8) :
    (s.lock k).ClearedFrom p ((placeClaim q a t).lock k) := by
  cases a with
  | outbox j =>
    simp only [placeClaim, placeOutbox]
    split
    · exact h k
    · rw [place_lock, State.lock_setLock]
      split
      · next hk => subst hk; exact (h k).outboxPlaced _
      · exact h k
  | expired j =>
    simp only [placeClaim, placeExpired]
    split
    · exact h k
    · rw [place_lock, State.lock_setLock]
      split
      · next hk => subst hk; exact (h k).erase _
      · exact h k
  | done e =>
    simp only [placeClaim, deliverDone]
    split
    · exact h k
    · rw [deliver_lock, place_lock]
      exact h k

theorem giveOut_clearedFrom (fuel : Nat) {p : Port} {s t : State} (h : ∀ k, (s.lock k).ClearedFrom p (t.lock k)) (k : Fin 8) :
    (s.lock k).ClearedFrom p ((giveOut fuel t).lock k) :=
  giveOut_induction (P := fun u => ∀ k, (s.lock k).ClearedFrom p (u.lock k)) (fun _ _ _ _ hu => placeClaim_clearedFrom hu) fuel t h k

/-! ## What the absorbed writes raise (R95, R40) -/

theorem cutOff_eq (x : Entry) : (linkDownOpen x).segments = cutOff x.segments := by
  have hsegments : ∀ g : Segment, ({ g with state := failOpen .linkDown g.state } : Segment) =
      if g.state = .notSent ∨ g.state = .sent then { g with state := .failed .linkDown } else g := by
    rintro ⟨a, b, st⟩
    cases st <;> rfl
  simp only [linkDownOpen, Entry.mapStates, cutOff, hsegments]

theorem chargeLaw_lostMarked {s : State} (h : ChargeLaw s) (p : Port) : ChargeLaw (lostMarked p s) := by
  refine chargeLaw_of_charged h (fun e d w => ?_) fun d w => by rw [lostMarked_window]; exact ⟨rfl, .inl⟩
  rw [lostMarked_entry]
  cases s.entry e with
  | none => rfl
  | some x =>
    rw [Option.bind_some]
    split
    · unfold Entry.lossMarked
      split
      · rfl
      · rfl
      · rfl
      · next hs => simp [chargedTo, hs]
    · rfl

theorem lostOrder_nodup (n : Nat) (p : Port) (s : State) : (lostOrder n p s).Nodup := by
  have hperm : (lostOrder n p s).Perm (lostOnes p s Entry.isOpen) :=
    ((List.Perm.refl _).append (freeArrange_perm n _)).trans (List.filter_append_perm _ _)
  exact hperm.nodup_iff.2 (lostOnes_nodup p s _)

/-- The window tables' raises of a link loss: one for each open ABSORBED entry of the forward port (R95, R40). -/
theorem forwardLinkLoss_raises {s : State} (h : ChargeLaw s) (n : Nat) (p : Port) :
    (forwardLinkLoss n p s).2.Perm (cutOffWrites p s) := by
  have heach : ∀ e ∈ lostOrder n p s, resultRaisesAt (lostMarked p s) e = (match s.entry e with
      | some x =>
        if forwardPort x.dir = p ∧ x.kind = .absorbed ∧ (x.state = .pending ∨ x.state = .issued) then
          writeFailed x (cutOff x.segments)
        else []
      | none => []) := by
    intro e he
    obtain ⟨x, hx, hp, ho⟩ := mem_lostOnes.1 (mem_lostOrder.1 he)
    have hopen : x.state = .pending ∨ x.state = .issued := by simpa [Entry.isOpen] using ho
    have hmarked : (lostMarked p s).entry e = some (linkDownOpen x) := by
      rw [lostMarked_entry, hx, Option.bind_some, if_pos hp, Entry.lossMarked]
      rcases hopen with hs | hs <;> simp only [hs]
    rw [resultRaisesAt_of_some hmarked, Entry.resultRaises, hx, cutOff_eq]
    dsimp only
    by_cases hk : x.kind = .absorbed
    · rw [if_pos ⟨linkDownOpen_due hopen, hk⟩, if_pos ⟨hp, hk, hopen⟩]
      rfl
    · rw [if_neg (fun hc => hk hc.2), if_neg (fun hc => hk hc.2.1)]
  rw [forwardLinkLoss_eq, takeResults_raises (lostOrder_nodup n p s) (chargeLaw_lostMarked h p), List.flatMap_congr heach]
  refine flatMap_perm_allEntries (lostOrder_nodup n p s) fun e he => ?_
  rw [mem_lostOrder, mem_lostOnes] at he
  split
  · next x hx =>
    refine if_neg fun hc => he ⟨x, hx, hc.1, ?_⟩
    simpa [Entry.isOpen] using hc.2.2
  · rfl

/-- The raises of a link loss, in the words of the statements (R161). -/
theorem lossRaises_perm {s : State} (h : ChargeLaw s) (p : Port) :
    (lossRaises p s).Perm (flushLosses .linkDown .linkDown p (s.port p).egress ++ lockLosses p s ++ cutOffWrites p s) := by
  have hentries : ∀ e, (countFlushed (noticesOf (s.port p).egress) (s.setPort p (s.port p).linkLost)).entry e = s.entry e :=
    fun e => by rw [countFlushed_entry, State.entry_setPort]
  have hcharge : ChargeLaw (countFlushed (noticesOf (s.port p).egress) (s.setPort p (s.port p).linkLost)) :=
    chargeLaw_of_charged h (fun e d w => by rw [hentries]) fun d w => by
      rw [countFlushed_window, State.window_setPort]
      exact ⟨rfl, .inl⟩
  have hwrites : cutOffWrites p (countFlushed (noticesOf (s.port p).egress) (s.setPort p (s.port p).linkLost)) = cutOffWrites p s := by
    simp only [cutOffWrites, hentries]
  have hresults := forwardLinkLoss_raises hcharge s.freeNext p
  rw [hwrites] at hresults
  refine (freeMerge_perm _ _ _).trans ?_
  refine (((freeMerge_perm _ _ _).trans (hresults.append_left _)).append_right _).trans ?_
  rw [List.append_assoc, List.append_assoc]
  exact List.perm_append_comm.append_left _

/-- Settles O9: the other port's slots are given out after the port has closed, and the raises are judged last. -/
theorem linkLossClosesPort : Obligations.LinkLossClosesPort := by
  intro p s hl hw
  have hkept := (linkLossState_settingsKept p s).trans (giveOut_settingsKept 32 (linkLossState p s))
  have hnotices := hkept.notices
  refine ⟨_, exec_linkLoss_of_heads hl hw, ?port, ?other, fun k => ?locks, fun d w => ?windows, fun x => ?settings, ?classes, ?target,
    ?node, ?sequence, ?managers, ?timebase, ?resetN, ?pending, fun hn hc => ?raises⟩
  case port =>
    rw [raiseAll_port, giveOut_port_of_no_slot 32 (by simp [slotFree, linkLossState_port, PortState.linkLost]), linkLossState_port,
      if_pos rfl]
    rfl
  case other =>
    have hne : otherPort p ≠ p := by cases p <;> decide
    have hgain := giveOut_port_completions 32 (linkLossState p s) (otherPort p)
    rw [linkLossState_port, if_neg hne] at hgain
    rwa [raiseAll_port]
  case locks =>
    have hclear := giveOut_clearedFrom 32 (p := p) (s := s) (t := linkLossState p s)
      (fun k => by rw [linkLossState_lock]; exact .linkLoss p _) k
    obtain ⟨⟨hh, hwait, ho, he⟩, hlease, hwt⟩ := hclear
    rw [raiseAll_lock]
    exact ⟨hh, hwait, ho, he, hlease, hwt⟩
  case windows =>
    have hR := sameSettings_releaseRel
    have hmarked := (hR.takeResults Window.SameSettings.applyFailure (lostOrder s.freeNext p
      (countFlushed (noticesOf (s.port p).egress) (s.setPort p (s.port p).linkLost)))
      (lostMarked p (countFlushed (noticesOf (s.port p).egress) (s.setPort p (s.port p).linkLost))) d w)
    rw [lostMarked_window, countFlushed_window, State.window_setPort, ← forwardLinkLoss_eq] at hmarked
    have hall := hR.trans _ _ _ hmarked (hR.trans _ _ _ (hR.linkLossState p s d w) (hR.giveOut 32 _ d w))
    rw [raiseAll_window]
    exact ⟨_, _, _, hall⟩
  case settings =>
    rw [raiseAll_reserve, raiseAll_tcto, hkept.reserve, hkept.tcto]
    cases x <;> exact ⟨rfl, rfl⟩
  case raises =>
    refine ⟨lossRaises p s, lossRaises_perm hc p, ?_, freeMerge_sublist_right _ _ _, ?_⟩
    · exact (freeMerge_sublist_left _ _ _).trans (freeMerge_sublist_left _ _ _)
    · refine raiseAll_notices_congr _ ?_ ?_
      · rw [hnotices, countFlushed_notices hn]
      · exact hkept.timebase
  case managers => rw [raiseAll_managers, hkept.managers]; rfl
  case timebase => rw [raiseAll_timebase, hkept.timebase]; rfl
  case resetN => rw [raiseAll_resetN, hkept.resetN]; rfl
  case pending => rw [raiseAll_pending, hkept.pending]; rfl
  case classes => rw [raiseAll_classes, hnotices, countFlushed_eq]
  case target => rw [raiseAll_targetPort, hnotices, countFlushed_eq]
  case node => rw [raiseAll_targetNode, hnotices, countFlushed_eq]
  case sequence => rw [raiseAll_nextSequence, hnotices, countFlushed_eq]

end Sys2Proof.Machine
end

section
/-! A link loss entry by entry (04 4.8): the entries forwarded at the lost port, and those that arrived there. -/

namespace Sys2Proof.Machine

open Sys2Proof.Safety

/-- The other port has a free slot after a link loss exactly when it had one before. -/
theorem slotFree_linkLossState {p q : Port} {s : State} (h : q ≠ p) : slotFree q (linkLossState p s) = slotFree q s := by
  rw [slotFree, linkLossState_port, if_neg h, slotFree]

/-- The open entry ahead of a lost port has no TIMEOUT mark: its segments fail with LINK_DOWN (R95). -/
theorem linkDownOpen_timedOut {x : Entry} (h : x.timedOut = false) : (linkDownOpen x).timedOut = false := by
  refine (Entry.timedOut_eq_false_iff _).2 (Entry.forall_mapStates (P := fun a => a ≠ .failed .timeout).2 fun g hg => ?_)
  have hne := x.timedOut_eq_false_iff.1 h g hg
  cases hs : g.state with
  | failed f => simpa [failOpen, hs] using hne
  | _ => simp [failOpen]

theorem linkDownDone_timedOut (x : Entry) : (linkDownDone x).timedOut = false := by
  refine (Entry.timedOut_eq_false_iff _).2 (Entry.forall_mapStates (P := fun a => a ≠ .failed .timeout).2 fun g _ => ?_)
  cases g.state with
  | failed f => cases f <;> simp [timeoutToLinkDown]
  | _ => simp [timeoutToLinkDown]

theorem unmarked_eq (x : Entry) : linkDownDone x = { x with segments := unmarked x.segments } := by
  have hsegments : ∀ g : Segment, ({ g with state := timeoutToLinkDown g.state } : Segment) =
      if g.state = .failed .timeout then { g with state := .failed .linkDown } else g := by
    rintro ⟨a, b, st⟩
    cases st with
    | failed f => cases f <;> simp [timeoutToLinkDown]
    | _ => simp [timeoutToLinkDown]
  simp only [linkDownDone, Entry.mapStates, unmarked, hsegments]

/-- An open entry with a segment that its forward port cuts off fails (R84, R95). -/
theorem linkDownOpen_failed {x : Entry} (h : LawfulEntry x) (ho : x.state = .pending ∨ x.state = .issued) :
    ∃ f, (linkDownOpen x).formResult = .failed f := by
  have hopen : ∃ g ∈ x.segments, g.state.resolved = false := by
    obtain ⟨hp, hi, -⟩ := h
    by_contra hno
    have hres : x.resolved = true := x.resolved_iff.2 fun g hg => by
      by_contra hc
      exact hno ⟨g, hg, by simpa using hc⟩
    rcases ho with hs | hs
    · obtain ⟨g, hg, hn⟩ := x.unsent_iff.1 (hp hs)
      exact hno ⟨g, hg, by rw [hn]; rfl⟩
    · rw [(hi hs).2] at hres
      cases hres
  obtain ⟨g, hg, hres⟩ := hopen
  refine formResult_failed (g := { g with state := failOpen .linkDown g.state }) (Entry.mem_mapStates.2 ⟨g, hg, rfl⟩)
    (f := .linkDown) ?_
  revert hres
  cases g.state <;> simp [failOpen, SegState.resolved]

/-- An open entry ahead of the lost port, after it has taken its result (R95). -/
theorem Entry.forwardLost_of_open {x : Entry} (h : x.state = .pending ∨ x.state = .issued) :
    x.forwardLost = (linkDownOpen x).settled := by
  unfold Entry.forwardLost
  rcases h with hs | hs <;> simp only [hs]

/-- The window of an open ABSORBED entry ahead of the lost port ends FAULTED with a record (R40, R95). -/
theorem linkLossState_window_faulty {p : Port} {s : State} {e : Fin 64} {x : Entry} (h : LawfulEntry x) (hx : s.entry e = some x)
    (hp : forwardPort x.dir = p) (ho : x.state = .pending ∨ x.state = .issued) (hk : x.kind = .absorbed)
    (hw : (s.window x.dir x.window).state = .active) : ((linkLossState p s).window x.dir x.window).Faulty := by
  generalize hu : countFlushed (noticesOf (s.port p).egress) (s.setPort p (s.port p).linkLost) = u
  have hentry : ∀ i, u.entry i = s.entry i := fun i => by rw [← hu, countFlushed_entry, State.entry_setPort]
  have hwindow : u.window x.dir x.window = s.window x.dir x.window := by rw [← hu, countFlushed_window, State.window_setPort]
  obtain ⟨f, hf⟩ := linkDownOpen_failed h ho
  have hmarked : (lostMarked p u).entry e = some (linkDownOpen x) := by
    rw [lostMarked_entry, hentry, hx, Option.bind_some, if_pos hp, Entry.lossMarked]
    rcases ho with hs | hs <;> simp only [hs]
  have hmem : e ∈ lostOrder s.freeNext p u :=
    mem_lostOrder.2 (mem_lostOnes.2 ⟨x, by rw [hentry, hx], hp, by simpa [Entry.isOpen] using ho⟩)
  have hforward : ((forwardLinkLoss s.freeNext p u).1.window x.dir x.window).Faulty := by
    rw [forwardLinkLoss_eq]
    refine takeResults_faulty (.inl ?_) (.inr ⟨e, hmem, _, f, hmarked, linkDownOpen_due ho, hk, hf, rfl, rfl⟩)
    rw [lostMarked_window, hwindow, hw]
  exact hforward.eased (hu ▸ eased_releaseRel.linkLossState p s x.dir x.window)

/-- Settles O10: each entry as the loss leaves it, and DONE ones delivered from a free slot of their origin port. -/
theorem linkLossResolvesEntries : Obligations.LinkLossResolvesEntries := by
  intro p s hlaw hl hw
  refine ⟨_, exec_linkLoss_of_heads hl hw, fun e x hx => ?_⟩
  rw [raiseAll_entry, raiseAll_window]
  have hlawful : LawfulEntry x := hlaw e x hx
  obtain ⟨-, -, hclean, -⟩ := id hlawful
  have hloss : (linkLossState p s).entry e = if forwardPort x.dir = p then x.forwardLost else x.originLost := by
    rw [linkLossState_entry, hx, Option.bind_some]
  have hstays : ∀ o, (linkLossState p s).entry e = o → (∀ y, o = some y → y.state ≠ .done) →
      (giveOut 32 (linkLossState p s)).entry e = o := fun o ho hno =>
    (giveOut_entry_of_not_done fun y hy => hno y (by rw [← ho, hy])).trans ho
  have hgives : ∀ y, (linkLossState p s).entry e = some y → y.timedOut = false → originPort y.dir ≠ p →
      (giveOut 32 (linkLossState p s)).entry e = some y ∨
        (giveOut 32 (linkLossState p s)).entry e = none ∧ slotFree (originPort y.dir) s = true := by
    intro y hy ht hne
    rcases giveOut_entry 32 (linkLossState p s) e with hsame | ⟨z, hz, -, hfree, hdel⟩
    · exact .inl (hsame.trans hy)
    · rw [hy] at hz
      cases hz
      exact .inr ⟨hdel.trans (Entry.delivered_of_not_timedOut ht), (slotFree_linkLossState hne) ▸ hfree⟩
  refine ⟨fun hp => ?forward, fun hp => ?origin⟩
  case forward =>
    have hne : originPort x.dir ≠ p := by rw [← hp]; cases x.dir <;> decide
    rw [if_pos hp] at hloss
    refine ⟨fun ho hk => ?freed, fun ho hk hwin => ?faults, fun ho hk horph => ?done, fun hs => ?unmarks, fun hs => ?gone⟩
    case freed =>
      have hsettled : (linkDownOpen x).settled = none := by
        have hnot : ¬ ((linkDownOpen x).kind ≠ .absorbed ∧ (linkDownOpen x).orphaned = false) := by
          rintro ⟨hka, horph⟩
          rcases hk with hk | hk
          · exact hka hk
          · rw [show (linkDownOpen x).orphaned = true from hk] at horph
            cases horph
        rw [Entry.settled, if_pos (linkDownOpen_due ho), if_neg hnot]
        exact Entry.delivered_of_not_timedOut (linkDownOpen_timedOut (hclean ho).1)
      rw [Entry.forwardLost_of_open ho, hsettled] at hloss
      exact hstays none hloss (by simp)
    case faults =>
      exact (linkLossState_window_faulty hlawful hx hp ho hk hwin).eased (eased_releaseRel.giveOut 32 _ _ _)
    case done =>
      have hsettled : (linkDownOpen x).settled = some { (linkDownOpen x).withResult with state := .done } := by
        rw [Entry.settled, if_pos (linkDownOpen_due ho)]
        exact if_pos ⟨hk, horph⟩
      rw [Entry.forwardLost_of_open ho, hsettled] at hloss
      have hresult : ({ (linkDownOpen x).withResult with state := .done } : Entry) = { x with
          state := .done
          segments := cutOff x.segments
          result := some ({ x with segments := cutOff x.segments }).formResult
          deadline := none } := by
        rw [← cutOff_eq]
        rfl
      rw [← hresult]
      exact hgives _ hloss (linkDownOpen_timedOut (hclean ho).1) hne
    case unmarks =>
      have hlost : x.forwardLost = some (linkDownDone x) := by
        unfold Entry.forwardLost
        simp only [hs]
      rw [hlost] at hloss
      rw [← unmarked_eq]
      exact hgives _ hloss (linkDownDone_timedOut x) hne
    case gone =>
      have hlost : x.forwardLost = none := by
        unfold Entry.forwardLost
        simp only [hs]
      rw [hlost] at hloss
      exact hstays none hloss (by simp)
  case origin =>
    have hne : forwardPort x.dir ≠ p := by rw [← hp]; cases x.dir <;> decide
    rw [if_neg hne] at hloss
    refine ⟨fun ho => ?orphaned, fun hs => ?delivered, fun hs => ?quarantined⟩
    case orphaned =>
      have hlost : x.originLost = some { x with orphaned := true } := by
        unfold Entry.originLost
        rcases ho with hs | hs <;> simp only [hs]
      refine hstays _ (hloss.trans hlost) fun y hy => ?_
      cases hy
      rcases ho with hs | hs <;> simp [hs]
    case delivered =>
      have hlost : x.originLost = ({ x with orphaned := true } : Entry).delivered := by
        unfold Entry.originLost
        simp only [hs]
      exact hstays _ (hloss.trans hlost) fun y hy => Entry.delivered_state_ne_done (x := { x with orphaned := true }) hy
    case quarantined =>
      have hlost : x.originLost = some x := by
        unfold Entry.originLost
        simp only [hs]
      refine hstays _ (hloss.trans hlost) fun y hy => ?_
      cases hy
      simp [hs]

end Sys2Proof.Machine
end

section
/-! A stall timer's expiry: the flushed queue, the entries that fail, and their windows (R127, R94, R40). -/

namespace Sys2Proof.Machine

open Sys2Proof.Safety

/-! ## The stalled entries (R94) -/

/-- The entries that a stall of port `p` fails are the PENDING ones forwarded there: each has its unsent packets in the queue (R78). -/
theorem mem_stalledOnes_iff {p : Port} {s : State} (h : EntryLaw s) (hq : EgressLaw s) (e : Fin 64) :
    e ∈ stalledOnes (s.port p).egress s ↔ ∃ x, s.entry e = some x ∧ forwardPort x.dir = p ∧ x.state = .pending := by
  obtain ⟨href, hseg⟩ := hq
  rw [mem_stalledOnes, mem_entriesOf]
  constructor
  · rintro ⟨⟨n, q, hk⟩, -⟩
    obtain ⟨x, -, hx, hs, hp, -⟩ := (href p).2 e n (mem_segmentRefs.2 ⟨q, hk⟩)
    exact ⟨x, hx, hp, hs⟩
  · rintro ⟨x, hx, rfl, hs⟩
    obtain ⟨g, hg, hn⟩ := x.unsent_iff.1 ((h e x hx).1 hs)
    obtain ⟨n, hn'⟩ := List.mem_iff_getElem?.1 hg
    obtain ⟨q, hk⟩ := mem_segmentRefs.1 (hseg e n x g hx hn' hn)
    exact ⟨⟨n, q, hk⟩, x, hx, hs⟩

theorem stalledSegments_eq (x : Entry) : (stallEntry x).segments = stalledSegments x.segments := by
  have hsegments : ∀ g : Segment, ({ g with state := failUnsent .portStalled g.state } : Segment) =
      if g.state = .notSent then { g with state := .failed .portStalled } else g := by
    rintro ⟨a, b, st⟩
    cases st <;> rfl
  simp only [stallEntry, Entry.mapStates, stalledSegments, hsegments]

theorem stallEntry_eq (x : Entry) : stallEntry x = { x with state := .issued, segments := stalledSegments x.segments } := by
  rw [← stalledSegments_eq]
  rfl

/-- A stalled entry is resolved exactly when it has no SENT segment to wait for. -/
theorem stallEntry_due_iff (x : Entry) : (stallEntry x).due = true ↔ ∀ g ∈ x.segments, g.state ≠ .sent := by
  have hresolved : (stallEntry x).resolved = true ↔ ∀ g ∈ x.segments, (failUnsent .portStalled g.state).resolved = true :=
    (Entry.resolved_iff _).trans (Entry.forall_mapStates (P := fun a => a.resolved = true))
  rw [Entry.due_iff, hresolved]
  refine ⟨fun h g hg hs => ?_, fun h => ⟨.inr rfl, fun g hg => ?_⟩⟩
  · have := h.2 g hg
    rw [hs] at this
    cases this
  · have hne := h g hg
    revert hne
    cases g.state <;> simp [failUnsent, SegState.resolved]

theorem stallEntry_timedOut {x : Entry} (h : x.timedOut = false) : (stallEntry x).timedOut = false := by
  refine (Entry.timedOut_eq_false_iff _).2 (Entry.forall_mapStates (P := fun a => a ≠ .failed .timeout).2 fun g hg => ?_)
  have hne := x.timedOut_eq_false_iff.1 h g hg
  cases hs : g.state with
  | failed f => simpa [failUnsent, hs] using hne
  | _ => simp [failUnsent]

/-- A PENDING entry fails with its unsent segments (R84, R94). -/
theorem stallEntry_failed {x : Entry} (h : LawfulEntry x) (hs : x.state = .pending) : ∃ f, (stallEntry x).formResult = .failed f := by
  obtain ⟨g, hg, hn⟩ := x.unsent_iff.1 (h.1 hs)
  exact formResult_failed (g := { g with state := failUnsent .portStalled g.state }) (Entry.mem_mapStates.2 ⟨g, hg, rfl⟩)
    (f := .portStalled) (by rw [hn]; rfl)

/-- It fails with PORT_STALLED where no segment of it had failed before. -/
theorem stallEntry_failed_portStalled {x : Entry} {f : Failure} (hf : (stallEntry x).formResult = .failed f)
    (hseg : ∀ g ∈ x.segments, g.state = .notSent ∨ g.state = .ok) : f = .portStalled := by
  have hres : (stallEntry x).resolved = true :=
    ((Entry.due_iff _).1 ((stallEntry_due_iff x).2 fun g hg => by rcases hseg g hg with h | h <;> simp [h])).2
  rcases resultOf_formResult hres with ⟨hok, -⟩ | ⟨i, g, f', hr, hg, hs, -⟩
  · rw [hok] at hf
    cases hf
  · rw [hf] at hr
    cases hr
    obtain ⟨a, ha, rfl⟩ := Entry.mem_mapStates.1 (List.mem_of_getElem? hg)
    rcases hseg a ha with h | h
    · simpa [h, failUnsent] using hs.symm
    · simp [h, failUnsent] at hs

/-! ## The event -/

/-- The part with its port STALLED and the queue flushed, before the entries fail (R127, R167). -/
def stallFlushed (p : Port) (s : State) : State := countFlushed (noticesOf (s.port p).egress) (s.setPort p (s.port p).stall)

@[simp] theorem stallFlushed_entry (p : Port) (s : State) (e : Fin 64) : (stallFlushed p s).entry e = s.entry e := by
  rw [stallFlushed, countFlushed_entry, State.entry_setPort]

@[simp] theorem stallFlushed_window (p : Port) (s : State) (d : Dir) (w : Fin 16) :
    (stallFlushed p s).window d w = s.window d w := by
  rw [stallFlushed, countFlushed_window, State.window_setPort]

/-- The entries in the order in which a stall of port `p` gives them their results. -/
def stalledAt (p : Port) (s : State) : List (Fin 64) := stalledOrder (s.port p).egress (stallFlushed p s)

/-- The part with the stalled entries marked. -/
def stallMarked (p : Port) (s : State) : State := mapEntries (stalledOnes (s.port p).egress s) stallEntry (stallFlushed p s)

/-- The raises of a stall as they are judged (R161). -/
def stallRaises (p : Port) (s : State) : List Raise :=
  freeMerge s.freeNext (flushLosses .portStalled .portStalled p (s.port p).egress) (takeResults (stalledAt p s) (stallMarked p s)).2

theorem stalledOnes_stallFlushed (p : Port) (s : State) :
    stalledOnes (s.port p).egress (stallFlushed p s) = stalledOnes (s.port p).egress s :=
  stalledOnes_congr (stallFlushed_entry p s)

theorem stallEntries_stallFlushed (p : Port) (s : State) :
    stallEntries (s.port p).egress (stallFlushed p s) = takeResults (stalledAt p s) (stallMarked p s) := by
  rw [stallEntries_eq, stalledOnes_stallFlushed]
  rfl

theorem expireStall_eq {p : Port} {s : State} (h : (s.port p).stallTimer ≠ none) :
    expireStall p s = ((takeResults (stalledAt p s) (stallMarked p s)).1.drawn 1, stallRaises p s) := by
  obtain ⟨n, hn⟩ := Option.ne_none_iff_exists'.1 h
  rw [stallRaises, ← stallEntries_stallFlushed, flushLosses, ← passRaises_eq]
  unfold expireStall
  rw [hn]
  rfl

theorem mem_stalledAt {p : Port} {s : State} (h : EntryLaw s) (hq : EgressLaw s) (e : Fin 64) :
    e ∈ stalledAt p s ↔ ∃ x, s.entry e = some x ∧ forwardPort x.dir = p ∧ x.state = .pending := by
  rw [stalledAt, mem_stalledOrder, stalledOnes_stallFlushed, mem_stalledOnes_iff h hq]

theorem stallMarked_entry (p : Port) (s : State) (e : Fin 64) :
    (stallMarked p s).entry e = if e ∈ stalledOnes (s.port p).egress s then (s.entry e).map stallEntry else s.entry e := by
  rw [stallMarked, mapEntries_entry (stalledOnes_nodup _ _)]
  simp only [stallFlushed_entry]

theorem stallMarked_window (p : Port) (s : State) (d : Dir) (w : Fin 16) : (stallMarked p s).window d w = s.window d w := by
  rw [stallMarked, mapEntries_window, stallFlushed_window]

theorem stallMarked_entry_of_stalled {p : Port} {s : State} (h : EntryLaw s) (hq : EgressLaw s) {e : Fin 64} {x : Entry}
    (hx : s.entry e = some x) (hp : forwardPort x.dir = p) (hs : x.state = .pending) :
    (stallMarked p s).entry e = some (stallEntry x) := by
  rw [stallMarked_entry, if_pos ((mem_stalledOnes_iff h hq e).2 ⟨x, hx, hp, hs⟩), hx, Option.map_some]

theorem stalledAt_nodup (p : Port) (s : State) : (stalledAt p s).Nodup := by
  refine List.nodup_append.2 ⟨(List.nodup_finRange 64).filter _, (stalledOnes_nodup _ _).filter _, fun a ha b hb hab => ?_⟩
  subst hab
  have hyes := (List.mem_filter.1 ha).2
  have hno := (List.mem_filter.1 hb).2
  simp only [Bool.and_eq_true, Bool.not_eq_true'] at hyes hno
  rw [hno] at hyes
  cases hyes.2

/-! ## The raises of the absorbed writes (R40, R94) -/

theorem chargeLaw_stallMarked {s : State} (h : ChargeLaw s) (p : Port) : ChargeLaw (stallMarked p s) := by
  refine chargeLaw_of_charged h (fun e d w => ?_) fun d w => by rw [stallMarked_window]; exact ⟨rfl, .inl⟩
  rw [stallMarked_entry]
  split
  · next he =>
    obtain ⟨-, x, hx, hs⟩ := mem_stalledOnes.1 he
    rw [hx, Option.map_some, Bool.eq_iff_iff, chargedTo_some, chargedTo_some, hs]
    simp [stallEntry, Entry.mapStates]
  · rfl

/-- The window tables' raises of a stall: one for each ABSORBED entry that fails (R94, R40). -/
theorem stalledRaises_perm {p : Port} {s : State} (h : EntryLaw s) (hq : EgressLaw s) (hc : ChargeLaw s) :
    (takeResults (stalledAt p s) (stallMarked p s)).2.Perm (stalledWrites p s) := by
  have heach : ∀ e ∈ stalledAt p s, resultRaisesAt (stallMarked p s) e = (match s.entry e with
      | some x =>
        if forwardPort x.dir = p ∧ x.kind = .absorbed ∧ x.state = .pending ∧ ∀ g ∈ x.segments, g.state ≠ .sent then
          writeFailed x (stalledSegments x.segments)
        else []
      | none => []) := by
    intro e he
    obtain ⟨x, hx, hp, hs⟩ := (mem_stalledAt h hq e).1 he
    rw [resultRaisesAt_of_some (stallMarked_entry_of_stalled h hq hx hp hs), Entry.resultRaises, hx, stalledSegments_eq]
    dsimp only
    by_cases hfails : x.kind = .absorbed ∧ ∀ g ∈ x.segments, g.state ≠ .sent
    · obtain ⟨hk, hsent⟩ := hfails
      rw [if_pos ⟨(stallEntry_due_iff x).2 hsent, hk⟩, if_pos ⟨hp, hk, hs, hsent⟩]
      rfl
    · rw [if_neg (fun hno => hfails ⟨hno.2, (stallEntry_due_iff x).1 hno.1⟩), if_neg (fun hno => hfails ⟨hno.2.1, hno.2.2.2⟩)]
  rw [takeResults_raises (stalledAt_nodup p s) (chargeLaw_stallMarked hc p), List.flatMap_congr heach]
  refine flatMap_perm_allEntries (stalledAt_nodup p s) fun e he => ?_
  rw [mem_stalledAt h hq] at he
  split
  · next x hx => exact if_neg fun hno => he ⟨x, hx, hno.1, hno.2.2.1⟩
  · rfl

/-! ## The windows of the absorbed writes (R40) -/

/-- The one failure of a list at an ACTIVE window writes the record (R40, R41). -/
theorem takeResults_record {es : List (Fin 64)} {s : State} {e : Fin 64} {x : Entry} {f : Failure} (hn : es.Nodup) (he : e ∈ es)
    (hx : s.entry e = some x) (hdue : x.due = true) (hk : x.kind = .absorbed) (hf : x.formResult = .failed f)
    (hw : (s.window x.dir x.window).state = .active) (hothers : ∀ i ∈ es, i ≠ e → NoFailure s x.dir x.window i) :
    ((takeResults es s).1.window x.dir x.window).fault =
      some { address := x.address, node := x.node, status := f.status, later := 0 } := by
  obtain ⟨pre, post, rfl⟩ := List.append_of_mem he
  obtain ⟨hpre, hpost, hdisjoint⟩ := List.nodup_append.1 hn
  obtain ⟨hnot, hpostn⟩ := List.nodup_cons.1 hpost
  have hepre : e ∉ pre := fun hm => hdisjoint e hm e List.mem_cons_self rfl
  have hsplit : (takeResults (pre ++ e :: post) s).1 = (takeResults post (takeResult e (takeResults pre s).1).1).1 := by
    simp only [takeResults_fst, List.foldl_append, List.foldl_cons]
  have hbefore := takeResults_eased hpre fun i hi => hothers i (by simp [hi]) (fun hie => hepre (by rwa [hie] at hi))
  have hactive : ((takeResults pre s).1.window x.dir x.window).state = .active := by
    rw [hbefore.2 (by rw [hw]; simp), hw]
  have hxe : (takeResults pre s).1.entry e = some x := by rw [takeResults_entry, if_neg hepre, hx]
  have hrecord : ((takeResult e (takeResults pre s).1).1.window x.dir x.window).fault =
      some { address := x.address, node := x.node, status := f.status, later := 0 } := by
    rw [takeResult_absorbed_failed hxe hdue hk hf, deliver_window, releaseWindow, Entry.withResult_dir, Entry.withResult_window,
      State.window_setWindow_self, applyFailure]
    simp only [State.window_setWindow_self, Window.applyFailure, hactive, Window.release]
  have hafter : ∀ i ∈ post, NoFailure (takeResult e (takeResults pre s).1).1 x.dir x.window i := by
    intro i hi y g hy
    have hie : i ≠ e := fun hie => hnot (by rwa [hie] at hi)
    have hipre : i ∉ pre := fun hm => hdisjoint i hm i (List.mem_cons_of_mem _ hi) rfl
    rw [takeResult_entry, if_neg hie, takeResults_entry, if_neg hipre] at hy
    exact hothers i (by simp [hi]) hie y g hy
  rw [hsplit, (takeResults_eased hpostn hafter).1, hrecord]

/-! ## Slots given out behind a stall (R90) -/

theorem mem_takeResult_doneOrder {e : Fin 64} {s : State} {i : Fin 64} (h : i ∈ (takeResult e s).1.doneOrder) :
    i ∈ s.doneOrder ∨ i = e := by
  rcases takeResult_cases e s with ⟨-, hr⟩ | ⟨x, -, -, ⟨-, -, hr⟩ | ⟨-, ⟨hr, -⟩ | ⟨f, -, -, hr⟩⟩⟩ <;> rw [hr] at h
  · exact .inl h
  · exact (List.mem_append.1 h).imp_right List.mem_singleton.1
  · exact .inl (List.mem_of_mem_erase h)
  · exact .inl (by simpa [applyFailure] using List.mem_of_mem_erase h)

theorem mem_takeResults_doneOrder {es : List (Fin 64)} {s : State} {i : Fin 64} (h : i ∈ (takeResults es s).1.doneOrder) :
    i ∈ s.doneOrder ∨ i ∈ es := by
  rw [takeResults_fst] at h
  induction es generalizing s with
  | nil => exact .inl h
  | cons e es ih =>
    rcases ih h with hm | hm
    · exact (mem_takeResult_doneOrder hm).imp_right fun hie => List.mem_cons.2 (.inl hie)
    · exact .inr (List.mem_cons_of_mem _ hm)

/-- What the slots given out behind a stall of port `p` leave: they go to entries `es` of the stall, whose origin is the other port. -/
structure BehindStall (p : Port) (es : List (Fin 64)) (s t u : State) : Prop where
  locks : u.locks = s.locks
  slots : ∀ q, slotFree q u = true → slotFree q s = true
  order : ∀ i ∈ u.doneOrder, i ∈ s.doneOrder ∨ i ∈ es
  others : ∀ i, i ∉ es → u.entry i = s.entry i
  origin : ∀ i ∈ es, ∀ x, u.entry i = some x → originPort x.dir ≠ p
  port : u.port p = t.port p

theorem BehindStall.placeClaim {p q : Port} {a : Claim} {es : List (Fin 64)} {s t u : State} (h : BehindStall p es s t u)
    (hs : SlotLaw s) (ha : nextClaim q u = some a) : BehindStall p es s t (placeClaim q a u) := by
  obtain ⟨hlockeq, hslots, horder, hothers, horigin, hport⟩ := h
  obtain ⟨hlocks, hdone⟩ := (topClaim_eq_none_iff q s).1
    ((nextClaim_eq_none_iff q s).1 (hs q) (hslots q (slotFree_of_nextClaim ha)))
  have hlock : ∀ k, u.lock k = s.lock k := fun k => by rw [State.lock, State.lock, hlockeq]
  have hno : ∀ k, NoLockClaim q u k := fun k => by
    have hnone := (lockClaim_eq_none_iff q s k).1 (hlocks k (List.mem_finRange k))
    rwa [NoLockClaim, hlock]
  have hslots' : ∀ r, slotFree r (Machine.placeClaim q a u) = true → slotFree r s = true :=
    fun r hr => hslots r (slotFree_of_placeClaim ha hr)
  cases a with
  | outbox k =>
    obtain ⟨b, hb, hbp⟩ := nextClaim_stands ha
    exact absurd hbp ((hno k).1 b hb)
  | expired k =>
    obtain ⟨b, hb⟩ := nextClaim_stands ha
    exact absurd (by simpa using List.find?_some hb) ((hno k).2 b (List.mem_of_find?_eq_some hb))
  | done e =>
    obtain ⟨hmem, x, hx, hst, rfl⟩ := nextClaim_stands ha
    have hes : e ∈ es := by
      by_contra hne
      have hclaims := hdone e ((horder e hmem).resolve_right hne)
      rw [hothers e hne] at hx
      rw [(doneClaims_iff _ s e).2 ⟨x, hx, hst, rfl⟩] at hclaims
      cases hclaims
    have hne : p ≠ originPort x.dir := (horigin e hes x hx).symm
    have hplaced : Machine.placeClaim (originPort x.dir) (.done e) u =
        deliver e x (place (originPort x.dir) x.completion u) := by
      simp only [Machine.placeClaim, deliverDone, hx]
    rw [hplaced] at hslots' ⊢
    refine ⟨?_, hslots', fun i hi => ?_, fun i hi => ?_, fun i hi y hy => ?_, ?_⟩
    · rw [(deliver_tableChange _ _ _).locks, place, State.setPort_locks, hlockeq]
    · rw [deliver_doneOrder, place_doneOrder] at hi
      exact horder i (List.mem_of_mem_erase hi)
    · rw [deliver_entry_eq, if_neg (fun hie => hi (by rwa [hie])), place_entry, hothers i hi]
    · rw [deliver_entry_eq] at hy
      split at hy
      · rw [(Entry.delivered_some hy).1]
        exact hne.symm
      · rw [place_entry] at hy
        exact horigin i hi y hy
    · rw [deliver_port, place, State.port_setPort_ne _ _ _ _ hne, hport]

theorem BehindStall.giveOut {p : Port} {es : List (Fin 64)} {s t u : State} (fuel : Nat) (h : BehindStall p es s t u)
    (hs : SlotLaw s) : BehindStall p es s t (giveOut fuel u) :=
  giveOut_induction (P := BehindStall p es s t) (fun _ _ _ ha hv => hv.placeClaim hs ha) fuel u h

end Sys2Proof.Machine
end

section
/-! A stall timer's expiry, settled (R127, R94). -/

namespace Sys2Proof.Machine

open Sys2Proof.Safety

/-- A stall timer runs at a port that is UP (R126). -/
theorem link_up_of_stallTimer {p : Port} {s : State} (h : PortLaw s) (ht : (s.port p).stallTimer ≠ none) :
    (s.port p).link = .up := by
  obtain ⟨-, -, htimer⟩ := h p
  rw [PortTimer, Option.ne_none_iff_isSome.1 ht, eq_comm] at htimer
  simp only [PortState.waitsForCredit, Bool.and_eq_true, decide_eq_true_eq] at htimer
  exact htimer.1.1.1

/-- The state that a stall's results leave, before the slots are given out. -/
def stalledState (p : Port) (s : State) : State := (takeResults (stalledAt p s) (stallMarked p s)).1.drawn 1

theorem stallMarked_tableChange (p : Port) (s : State) : TableChange (stallFlushed p s) (stallMarked p s) :=
  mapEntries_tableChange _ _ _

theorem stalledState_tableChange (p : Port) (s : State) : TableChange ((stallFlushed p s).drawn 1) (stalledState p s) := by
  have h := (stallMarked_tableChange p s).trans (takeResults_tableChange (stalledAt p s) _)
  rw [TableChange] at h ⊢
  rw [stalledState, h]
  rfl

theorem stalledState_port (p q : Port) (s : State) :
    (stalledState p s).port q = if q = p then (s.port p).stall else s.port q := by
  rw [(stalledState_tableChange p s).port, State.port_drawn, stallFlushed, countFlushed_port, State.port_setPort]

theorem stalledState_entry (p : Port) (s : State) (i : Fin 64) :
    (stalledState p s).entry i =
      if i ∈ stalledAt p s then ((stallMarked p s).entry i).bind Entry.settled else (stallMarked p s).entry i := by
  rw [stalledState, State.entry_drawn, takeResults_entry]

theorem stalledState_settingsKept (p : Port) (s : State) :
    SettingsKept (countFlushed (noticesOf (s.port p).egress) s) (stalledState p s) := by
  refine .trans ?_ (.of_table (stalledState_tableChange p s))
  cases p <;> rfl

/-- The state in which a stall ends where no head waits. -/
theorem exec_stallTimerExpiry {p : Port} {s : State} (h : Quiet s) (ht : (s.port p).stallTimer ≠ none) :
    exec (.stallTimerExpiry p) s = .next (raiseAll (stallRaises p s) (giveOut 32 (stalledState p s))) := by
  have hheads : ∀ q, ((stalledState p s).port q).headWaits = false := by
    intro q
    rw [stalledState_port]
    split
    · exact quiet_heads h p
    · exact quiet_heads h q
  have hexec : exec (.stallTimerExpiry p) s = .next (settleWith (expireStall p s).2 (expireStall p s).1) := rfl
  rw [hexec, expireStall_eq ht]
  exact congrArg _ (settleWith_of_heads _ _ (hheads .u) (hheads .d))

section

variable {p : Port} {s : State} (h : EntryLaw s) (hq : EgressLaw s)
include h hq

/-- An entry that the stall does not touch. -/
theorem stalledState_entry_other {i : Fin 64} (hi : i ∉ stalledAt p s) : (stalledState p s).entry i = s.entry i := by
  have hnot : i ∉ stalledOnes (s.port p).egress s := fun hm => hi ((mem_stalledAt h hq i).2 ((mem_stalledOnes_iff h hq i).1 hm))
  rw [stalledState_entry, if_neg hi, stallMarked_entry, if_neg hnot]

/-- An entry that the stall fails or leaves waiting. -/
theorem stalledState_entry_stalled {e : Fin 64} {x : Entry} (hx : s.entry e = some x) (hp : forwardPort x.dir = p)
    (hs : x.state = .pending) : (stalledState p s).entry e = (stallEntry x).settled := by
  rw [stalledState_entry, if_pos ((mem_stalledAt h hq e).2 ⟨x, hx, hp, hs⟩), stallMarked_entry_of_stalled h hq hx hp hs,
    Option.bind_some]

/-- Before the first slot is given out. -/
theorem behindStall_stalledState (hl : (s.port p).link = .up) : BehindStall p (stalledAt p s) s (stalledState p s) (stalledState p s) where
  locks := by
    rw [(stalledState_tableChange p s).locks]
    exact State.setPort_locks s p _
  slots q hf := by
    rw [slotFree_iff, stalledState_port] at hf
    rw [slotFree_iff]
    by_cases hqp : q = p
    · subst hqp
      rw [if_pos rfl] at hf
      exact ⟨by rw [hl]; decide, hf.2⟩
    · rwa [if_neg hqp] at hf
  order i hi := by
    have horder : (stallMarked p s).doneOrder = s.doneOrder := by
      rw [stallMarked, mapEntries_doneOrder]
      exact State.setPort_doneOrder s p _
    exact (mem_takeResults_doneOrder hi).imp_left fun hm => by rwa [horder] at hm
  others i hi := stalledState_entry_other h hq hi
  origin i hi y hy := by
    obtain ⟨x, hx, hp, hs⟩ := (mem_stalledAt h hq i).1 hi
    rw [stalledState_entry_stalled h hq hx hp hs] at hy
    rw [(Entry.settled_some hy).1, show (stallEntry x).dir = x.dir from rfl, ← hp]
    cases x.dir <;> decide
  port := rfl

end

/-- Without queued segments no entry is stalled. -/
theorem stalledState_of_no_segments {p : Port} {s : State} (h : ∀ e n q, EgressPacket.segment e n q ∉ (s.port p).egress) :
    stalledState p s = (stallFlushed p s).drawn 1 ∧ stallRaises p s = flushLosses .portStalled .portStalled p (s.port p).egress := by
  have hnone : entriesOf (s.port p).egress = [] := List.eq_nil_iff_forall_not_mem.2 fun e he => by
    obtain ⟨n, q, hk⟩ := mem_entriesOf.1 he
    exact h e n q hk
  have hresults : takeResults (stalledAt p s) (stallMarked p s) = (stallFlushed p s, []) := by
    rw [← stallEntries_stallFlushed, stallEntries_eq]
    simp [stalledOrder, stalledOnes, hnone, mapEntries, takeResults]
  rw [stalledState, stallRaises, hresults, freeMerge_nil_right]
  exact ⟨rfl, rfl⟩

/-- Settles O33: the stalled entries' results are taken behind the flushed queue, and their slots given out. -/
theorem stallExpiryFlushesQueue : Obligations.StallExpiryFlushesQueue := by
  refine ⟨fun p s hquiet hports hlaw hegress ht => ?expiry, fun p s hquiet hports hn ht hno => ?empty, fun p s hrest ht => ?idle⟩
  case expiry =>
    have hup := link_up_of_stallTimer hports ht
    have hbehind := (behindStall_stalledState hlaw hegress hup).giveOut 32 hquiet.1
    have hkept := (stalledState_settingsKept p s).trans (giveOut_settingsKept 32 (stalledState p s))
    have hentry : ∀ e, (raiseAll (stallRaises p s) (giveOut 32 (stalledState p s))).entry e =
        (giveOut 32 (stalledState p s)).entry e := fun e => raiseAll_entry _ _ e
    refine ⟨_, exec_stallTimerExpiry hquiet ht, ?port, ?other, fun e x hx hp hs => ?stalled, fun e x hx hno => ?untouched,
      fun e he => ?free, fun e x hx hp hs hk hsent hw => ?window, fun hn hc => ?raises, ?locks, ?managers, ?timebase⟩
    case port =>
      rw [raiseAll_port, hbehind.port, stalledState_port, if_pos rfl]
      rfl
    case other =>
      have hne : otherPort p ≠ p := by cases p <;> decide
      have hgain := giveOut_port_completions 32 (stalledState p s) (otherPort p)
      rw [stalledState_port, if_neg hne] at hgain
      rwa [raiseAll_port]
    case stalled =>
      obtain ⟨-, -, hclean, -⟩ := hlaw e x hx
      have hstate := stalledState_entry_stalled hlaw hegress hx hp hs
      rw [hentry]
      refine ⟨fun hwaits => ?_, fun hsent => ⟨fun hk => ?_, fun hk ho => ?_⟩⟩
      · have hnot : (stallEntry x).due = false := by
          rw [← Bool.not_eq_true, stallEntry_due_iff]
          obtain ⟨g, hg, hgs⟩ := hwaits
          exact fun hall => hall g hg hgs
        rw [Entry.settled_of_not_due hnot] at hstate
        rw [← stallEntry_eq, ← hstate]
        refine giveOut_entry_of_not_done fun y hy => ?_
        rw [hstate] at hy
        cases hy
        simp [stallEntry]
      · have hsettled : (stallEntry x).settled = none := by
          have hnot : ¬ ((stallEntry x).kind ≠ .absorbed ∧ (stallEntry x).orphaned = false) := by
            rintro ⟨hka, horph⟩
            rcases hk with hk | hk
            · exact hka hk
            · rw [show (stallEntry x).orphaned = true from hk] at horph
              cases horph
          rw [Entry.settled, if_pos ((stallEntry_due_iff x).2 hsent), if_neg hnot]
          exact Entry.delivered_of_not_timedOut (stallEntry_timedOut (hclean (.inl hs)).1)
        rw [hsettled] at hstate
        rw [giveOut_entry_of_not_done (fun y hy => by rw [hstate] at hy; cases hy), hstate]
      · have hsettled : (stallEntry x).settled = some { (stallEntry x).withResult with state := .done } := by
          rw [Entry.settled, if_pos ((stallEntry_due_iff x).2 hsent)]
          exact if_pos ⟨hk, ho⟩
        rw [hsettled] at hstate
        have hresult : ({ (stallEntry x).withResult with state := .done } : Entry) = { x with
            state := .done, segments := stalledSegments x.segments, deadline := none
            result := some ({ x with segments := stalledSegments x.segments }).formResult } := by
          rw [← stalledSegments_eq]
          rfl
        rw [← hresult, ← hstate]
        rcases giveOut_entry 32 (stalledState p s) e with hsame | ⟨y, hy, -, hfree, hdel⟩
        · exact .inl hsame
        · rw [hstate] at hy
          cases hy
          refine .inr ⟨hdel.trans (Entry.delivered_of_not_timedOut (stallEntry_timedOut (hclean (.inl hs)).1)), ?_⟩
          exact (behindStall_stalledState hlaw hegress hup).slots _ hfree
    case untouched =>
      have hnot : e ∉ stalledAt p s := fun hm => by
        obtain ⟨y, hy, hyp, hys⟩ := (mem_stalledAt hlaw hegress e).1 hm
        rw [hx] at hy
        cases hy
        exact hno ⟨hyp, hys⟩
      rw [hentry, hbehind.others e hnot, hx]
    case free =>
      have hnot : e ∉ stalledAt p s := fun hm => by
        obtain ⟨y, hy, -⟩ := (mem_stalledAt hlaw hegress e).1 hm
        rw [he] at hy
        cases hy
      rw [hentry, hbehind.others e hnot, he]
    case window =>
      have hmem : e ∈ stalledAt p s := (mem_stalledAt hlaw hegress e).2 ⟨x, hx, hp, hs⟩
      have hmarked := stallMarked_entry_of_stalled hlaw hegress hx hp hs
      have hactive : ((stallMarked p s).window x.dir x.window).state = .active := by rw [stallMarked_window, hw]
      have hdue := (stallEntry_due_iff x).2 hsent
      obtain ⟨f, hf⟩ := stallEntry_failed (hlaw e x hx) hs
      have heased : ((takeResults (stalledAt p s) (stallMarked p s)).1.window x.dir x.window).Eased
          ((giveOut 32 (stalledState p s)).window x.dir x.window) := by
        have hgive := eased_releaseRel.giveOut 32 (stalledState p s) x.dir x.window
        rwa [stalledState, State.window_drawn] at hgive
      have hfaulty := (takeResults_faulty (.inl hactive) (.inr ⟨e, hmem, _, f, hmarked, hdue, hk, hf, rfl, rfl⟩)).eased heased
      rw [raiseAll_window]
      refine ⟨hfaulty.1, hfaulty.2, fun hseg hothers => ?_⟩
      have hrecord := takeResults_record (stalledAt_nodup p s) hmem hmarked hdue hk hf hactive fun i hi hie y g hy hydue hyk hyd hyw _ => by
        obtain ⟨z, hz, hzp, hzs⟩ := (mem_stalledAt hlaw hegress i).1 hi
        rw [stallMarked_entry_of_stalled hlaw hegress hz hzp hzs] at hy
        cases hy
        obtain ⟨b, hb, hbs⟩ := hothers i z hie hz hyd hyw hzs hyk
        exact (stallEntry_due_iff z).1 hydue b hb hbs
      rw [heased.1]
      refine hrecord.trans ?_
      rw [stallEntry_failed_portStalled hf hseg]
      rfl
    case raises =>
      refine ⟨stallRaises p s, ?_, freeMerge_sublist_left _ _ _, ?_⟩
      · exact (freeMerge_perm _ _ _).trans ((stalledRaises_perm hlaw hegress hc).append_left _)
      · refine raiseAll_notices_congr _ ?_ hkept.timebase
        rw [hkept.notices, countFlushed_notices hn]
    case locks => rw [raiseAll_locks, hbehind.locks]
    case managers => rw [raiseAll_managers, hkept.managers]; rfl
    case timebase => rw [raiseAll_timebase, hkept.timebase]; rfl
  case empty =>
    obtain ⟨hstate, hraises⟩ := stalledState_of_no_segments hno
    have hup := link_up_of_stallTimer hports ht
    have hstalled : Quiet (s.setPort p (s.port p).stall) := by
      refine quiet_setPort hquiet ?_ rfl rfl
      rw [hup]
      simp [PortState.stall]
    have hflushed : Quiet (stallFlushed p s) := quiet_notices hstalled _
    have hexec : exec (.stallTimerExpiry p) s = .next (settleWith (expireStall p s).2 (expireStall p s).1) := rfl
    rw [hexec, expireStall_eq ht, hraises]
    refine congrArg _ ?_
    show settleWith _ (stalledState p s) = _
    rw [hstate, settleWith_of_atRest _ _ (Alike.atRest (alike_drawn _ 1) (quiet_atRest _ hflushed))]
    refine congrArg (raiseAll _) ?_
    have hcount := countFlushed_notices hn (s.port p).egress
    rw [← hcount]
    cases p <;> rfl
  case idle =>
    have hexpire : expireStall p s = (s, []) := by
      unfold expireStall
      rw [ht]
    refine congrArg Host.Outcome.next ?_
    rw [hexpire]
    exact settleWith_of_atRest [] s hrest

end Sys2Proof.Machine
end

section
/-! A step without a command: REFCLK periods, ticks and what falls due at them (09 9.5). -/

namespace Sys2Proof.Machine

open Sys2Proof.Safety

/-! ## What is due -/

theorem isDue_timebase (s : State) (b : Timebase) (d : Due) : State.isDue { s with timebase := b } d = s.isDue d := by
  cases d with
  | stall p => simp only [State.isDue, State.port_timebase]
  | _ => rfl

theorem filter_isDue_timebase (s : State) (b : Timebase) :
    (State.timers { s with timebase := b }).filter (State.isDue { s with timebase := b }) = s.timers.filter s.isDue :=
  List.filter_congr fun d _ => isDue_timebase s b d

theorem timerRuns_iff (o : Option Nat) : timerRuns o ↔ o ≠ some 0 := by
  unfold timerRuns
  cases o with
  | none => simp
  | some n => simp [Nat.pos_iff_ne_zero]

/-- Nothing is due while every timer is off or has whole ticks still to begin (R188; log 11). -/
theorem filter_isDue_eq_nil {s : State} (hports : ∀ p, timerRuns (s.port p).stallTimer)
    (hentries : ∀ e x, s.entry e = some x → timerRuns (x.deadline.map Deadline.remaining) ∧ timerRuns x.quarantine)
    (hlocks : ∀ k, timerRuns (s.lock k).lease ∧ ∀ w ∈ (s.lock k).waiters, timerRuns w.deadline) :
    s.timers.filter s.isDue = [] := by
  have hdeadline : ∀ e, s.isDue (.deadline e) = false := fun e => by
    cases hx : s.entry e with
    | none => simp only [State.isDue, hx]
    | some x =>
      have hrun := (timerRuns_iff _).1 (hentries e x hx).1
      simp only [State.isDue, hx]
      revert hrun
      cases x.deadline <;> simp
  have hquarantine : ∀ e, s.isDue (.quarantine e) = false := fun e => by
    cases hx : s.entry e with
    | none => simp only [State.isDue, hx]
    | some x => simpa [State.isDue, hx] using (timerRuns_iff _).1 (hentries e x hx).2
  have hstall : ∀ p, s.isDue (.stall p) = false := fun p => by
    simpa [State.isDue] using (timerRuns_iff _).1 (hports p)
  have hlease : ∀ k, s.isDue (.lease k) = false := fun k => by
    simpa [State.isDue] using (timerRuns_iff _).1 (hlocks k).1
  have hwait : ∀ k node p, s.isDue (.wait k node p) = false := fun k node p => by
    simp only [State.isDue, List.any_eq_false, decide_eq_true_eq]
    exact fun w hw hdue => (timerRuns_iff _).1 ((hlocks k).2 w hw) hdue.2.2
  refine List.filter_eq_nil_iff.2 fun d hd => ?_
  cases d with
  | deadline e => simp [hdeadline]
  | quarantine e => simp [hquarantine]
  | stall p => simp [hstall]
  | lease k => simp [hlease]
  | wait k node p => simp [hwait]
  | millisecond => simp [State.timers] at hd

/-! ## The tick -/

/-- The timebase after one tick, and whether it is the 1000th (R189). -/
theorem Timebase.tick_of_progress {b : Timebase} (h : b.msProgress < 999) :
    b.tick = ({ b with msProgress := b.msProgress + 1 }, false) := if_neg (by omega)

theorem Timebase.tick_of_last {b : Timebase} (h : 999 ≤ b.msProgress) : b.tick = ({ b with msProgress := 0 }, true) := if_pos h

/-- A tick at which nothing falls due counts the timers down (R188). -/
theorem tick_of_none {s : State} (h : s.timers.filter s.isDue = []) :
    tick s = State.countDown { s with timebase :=
      if 999 ≤ s.timebase.msProgress then { s.timebase with msProgress := 0, msCount := s.timebase.msCount + 1 }
      else { s.timebase with msProgress := s.timebase.msProgress + 1 } } := by
  unfold tick
  dsimp only
  rw [filter_isDue_timebase, h]
  by_cases hlast : 999 ≤ s.timebase.msProgress
  · rw [Timebase.tick_of_last hlast, if_pos hlast]
    rfl
  · rw [Timebase.tick_of_progress (by omega), if_neg hlast]
    rfl

/-- A tick at which one timer falls due is its expiry, then the count down (R188). -/
theorem tick_of_one {s : State} {d : Due} (h : s.timers.filter s.isDue = [d]) (hp : s.timebase.msProgress < 999) :
    tick s = (runDue d { s with timebase := { s.timebase with msProgress := s.timebase.msProgress + 1 } }).countDown := by
  unfold tick
  dsimp only
  rw [filter_isDue_timebase, h, Timebase.tick_of_progress hp]
  rfl

/-- What is due runs as its row of the table (R188). -/
theorem exec_expiryRow {s : State} {d : Due} (hr : s.resetN = true) (h : s.isDue d = true) :
    exec (expiryRow d) s = .next (runDue d s) := by
  unfold runDue
  rw [if_pos h]
  cases d with
  | millisecond => exact if_pos hr
  | _ => rfl

theorem step_idle {s : State} (h : s.pending = []) : step s = .next (refclkPeriod s) := by
  simp only [step, h]

/-- The REFCLK period that completes a tick (R187). -/
theorem refclkPeriod_tick {s : State} (hr : s.resetN = true) (h : s.timebase.divider ≤ s.timebase.refclk + 1) :
    refclkPeriod s = tick { s with timebase := { s.timebase with refclk := 0 } } := by
  rw [refclkPeriod, if_pos hr, if_pos h]

/-- Settles O2: a period counts, completes a quiet tick, or completes the tick of one expiry. -/
theorem idleStepCountsRefclk : Obligations.IdleStepCountsRefclk := by
  intro s hidle
  refine ⟨fun hr => ?_, fun hr hlt => ?_, fun hr hge hports hentries hlocks => ?_, fun d hr hge hp hone => ?_⟩
  · rw [step_idle hidle, refclkPeriod, hr]
    rfl
  · rw [step_idle hidle, refclkPeriod, if_pos hr, if_neg (by omega)]
  · have hnone : (State.timers { s with timebase := { s.timebase with refclk := 0 } }).filter
        (State.isDue { s with timebase := { s.timebase with refclk := 0 } }) = [] := by
      rw [filter_isDue_timebase]
      exact filter_isDue_eq_nil hports hentries hlocks
    refine ⟨_, by rw [step_idle hidle, refclkPeriod_tick hr hge, tick_of_none hnone], fun p => ?_, fun e => ?_, fun k => ?_, ?_⟩
    · rw [countDown_port, State.port_timebase]
      rfl
    · rw [countDown_entry, State.entry_timebase]
      rfl
    · rw [countDown_lock, State.lock_timebase]
      rfl
    · rfl
  · have hone' : (State.timers { s with timebase := { s.timebase with refclk := 0 } }).filter
        (State.isDue { s with timebase := { s.timebase with refclk := 0 } }) = [d] := by
      rw [filter_isDue_timebase]
      exact hone
    have hdue : s.isDue d = true := (List.mem_filter.1 (by rw [hone]; exact List.mem_singleton_self d)).2
    refine ⟨_, exec_expiryRow hr ((isDue_timebase s _ d).trans hdue), ?_⟩
    rw [step_idle hidle, refclkPeriod_tick hr hge, tick_of_one hone' hp]

end Sys2Proof.Machine
end

end
